-- ==== Sys2Proof/Word.lean ====
section
/-! DEFINITION. The two widths of the telemetry packet encoder: the 32-bit host word and the 8-bit
byte of the output port (00_scope.md R6, R7). No value of the block is signed (00_scope.md section 6). -/

namespace Sys2Proof

/-- `u32`: a record register, a command word, a word returned to the host (R7). -/
abbrev Word := BitVec 32

/-- `u8`: a byte of the output stream, and the accumulator (R6, R7). -/
abbrev Byte := BitVec 8

end Sys2Proof
end

