-- ==== Sys2Proof/Machine/State.lean ====
section
/-! DEFINITION. The machine's state as plain data: the 15 fields of 10_state.md R10 and R31, and three
fields of the model's own that stand for the world outside the block (log 1, 2, 3). -/

namespace Sys2Proof.Machine

/-- The four kinds of event of 20_memory.md R52. -/
inductive Event where
  /-- `BusRead(wa)`: a host read of the word at address `wa` (R66). -/
  | busRead (wa : BitVec 3)
  /-- `BusWrite(wa, v)`: a host write of a whole word (R66). -/
  | busWrite (wa : BitVec 3) (data : Word)
  /-- The sink drives TX_READY (10_state.md R27): a SinkAccept while TX_VALID = 1, nothing while TX_VALID = 0
  (42_sequencer.md R140). Log 4. -/
  | sinkReady
  /-- The reset source asserts reset (70_reset_and_hazards.md R200). -/
  | reset
  deriving DecidableEq, Repr

/-- Events that happen at the same moment: they take effect in some serial order, which the spec does not
fix (20_memory.md R54). -/
abbrev Moment := List Event

/-- What the outside world sees (10_state.md R31, 42_sequencer.md R166). -/
inductive Obs where
  /-- A START was accepted: the mark that groups the bytes after it (R166). -/
  | frameStarted
  /-- `Emit(b)`: byte `b` went to the sink with TX_LAST = `last` (42_sequencer.md R141, 10_state.md R27). -/
  | transferred (b : Byte) (last : Bool)
  /-- A BusRead returned `w`. -/
  | returned (w : Word)
  deriving DecidableEq, Repr

/-- The four record registers, the only ones the host both writes and reads back (10_state.md R15). -/
inductive RecordReg where
  /-- WA 0 (R11). -/
  | ts
  /-- WA 1 (R12). -/
  | lat
  /-- WA 2 (R13). -/
  | lon
  /-- WA 3 (R14). -/
  | alt
  deriving DecidableEq, Repr

/-- The three error conditions, complete (60_exceptions.md R181). -/
inductive ErrorBit where
  /-- STATUS[2], ERR_BUSY: START while BUSY = 1 (10_state.md R20). -/
  | busy
  /-- STATUS[3], ERR_CMD: a reserved command word (10_state.md R21). -/
  | cmd
  /-- STATUS[4], ERR_ACCESS: a write to WA 5, 6 or 7 (10_state.md R22). -/
  | access
  deriving DecidableEq, Repr

/-- The state of one TPE and its surroundings. -/
structure State where
  /-- TS, timestamp record register (R11). -/
  ts : Word
  /-- LAT, latitude record register (R12). -/
  lat : Word
  /-- LON, longitude record register (R13). -/
  lon : Word
  /-- ALT, altitude record register (R14). -/
  alt : Word
  /-- STS, shadow of TS (R26). -/
  sts : Word
  /-- SLAT, shadow of LAT (R26). -/
  slat : Word
  /-- SLON, shadow of LON (R26). -/
  slon : Word
  /-- SALT, shadow of ALT (R26). -/
  salt : Word
  /-- BUSY, STATUS[0] (R18). -/
  busy : Bool
  /-- DONE, STATUS[1], sticky (R19). -/
  done : Bool
  /-- ERR_BUSY, STATUS[2], sticky (R20). -/
  errBusy : Bool
  /-- ERR_CMD, STATUS[3], sticky (R21). -/
  errCmd : Bool
  /-- ERR_ACCESS, STATUS[4], sticky (R22). -/
  errAccess : Bool
  /-- IDX, STATUS[12:8], 5 bits in hardware, 19 to 31 unreachable (R24, R31, R161). Log 6. -/
  idx : BitVec 5
  /-- ACC, the checksum accumulator, CSUM[7:0] (R25). -/
  acc : Byte
  /-- The events still to happen, moment by moment, in order. The model's own field. Log 1. -/
  pending : List Moment
  /-- How many free choices of a serial order were made. The model's own field. Log 2. -/
  choices : Nat
  /-- What was observed so far, oldest first. The model's own field. Log 3. -/
  trace : List Obs
  deriving DecidableEq, Repr

/-- What stops the machine. -/
inductive Fault where
  /-- Raised by the SEQ_INVALID steps: a SinkAccept with IDX 19 to 31, "a fault named SeqInvalid, never as a
  byte" (42_sequencer.md R161). Safe: no reachable state meets it. -/
  | seqInvalid
  deriving DecidableEq, Repr

/-- Situations the model does not admit. -/
inductive Refusal where
  /-- Raised by an arm of `exec` that has no meaning yet: none does. Safe. -/
  | notModelled (mnemonic : String)
  /-- Raised by the EMIT steps when BUSY = 0: "While BUSY = 0 the sink has no step" (42_sequencer.md R140).
  `step` never asks for one there. Log 4. Safe. -/
  | noSinkAcceptWhileIdle
  deriving DecidableEq, Repr

/-- The machine right after reset (10_state.md R30): every register 0. Nothing is pending and nothing has
been observed (DESIGN CHOICE, log 1 to 3). -/
def State.reset : State where
  ts := 0x00000000
  lat := 0x00000000
  lon := 0x00000000
  alt := 0x00000000
  sts := 0x00000000
  slat := 0x00000000
  slon := 0x00000000
  salt := 0x00000000
  busy := false
  done := false
  errBusy := false
  errCmd := false
  errAccess := false
  idx := 0
  acc := 0x00
  pending := []
  choices := 0
  trace := []

end Sys2Proof.Machine
end

