-- ==== Sys2Proof/Machine/Flags.lean ====
section
/-! DEFINITION. The status word, the checksum word and the sticky bits (10_state.md R17 to R25). The block has
no condition codes (R28). -/

namespace Sys2Proof.Machine

/-- One bit of a status word. -/
def bitWord (b : Bool) : Word := if b then 1 else 0

/-- STATUS (R17): `zext_32(IDX) << 8 | ERR_ACCESS << 4 | ERR_CMD << 3 | ERR_BUSY << 2 | DONE << 1 | BUSY`. -/
def statusWord (s : State) : Word :=
  s.idx.setWidth 32 <<< 8 ||| bitWord s.errAccess <<< 4 ||| bitWord s.errCmd <<< 3 |||
    bitWord s.errBusy <<< 2 ||| bitWord s.done <<< 1 ||| bitWord s.busy

/-- CSUM (R25): `zext_32(ACC)`. -/
def csumWord (s : State) : Word := s.acc.setWidth 32

/-- What CLEAR_STATUS clears: DONE and the three error bits (R129). -/
def clearSticky (s : State) : State :=
  { s with done := false, errBusy := false, errCmd := false, errAccess := false }

end Sys2Proof.Machine
end

