-- ==== Sys2Proof/Machine/Frame.lean ====
section
/-! DEFINITION. The frame function of 40_frame_encoder.md, the block's data contract, as a pure function of
a record, and the byte the sequencer offers at each index (42_sequencer.md R141). -/

namespace Sys2Proof

/-- A TelemetryRecord `(ts, lat, lon, alt)`: a timestamp and three IEEE-754 single-precision patterns, all
2^128 of them legal (R90, R102). -/
structure Record where
  ts : Word
  lat : Word
  lon : Word
  alt : Word
  deriving DecidableEq, Repr

/-- `be32`: most significant byte first (R91). Float patterns go through it unchanged (R92), and so does
the timestamp (R93). -/
def be32 (x : Word) : List Byte :=
  [x.extractLsb' 24 8, x.extractLsb' 16 8, x.extractLsb' 8 8, x.extractLsb' 0 8]

/-- The 16 payload bytes, in the order timestamp, latitude, longitude, altitude (R94). -/
def payload (r : Record) : List Byte := be32 r.ts ++ be32 r.lat ++ be32 r.lon ++ be32 r.alt

/-- The one-byte wrap-around accumulator run over a byte sequence (R95, second form). -/
def csum8 (p : List Byte) : Byte := p.foldl (· + ·) 0

/-- The start delimiter (R96). -/
def startDelimiter : Byte := 0x7E

/-- The hardwired payload length, 16 (R97). -/
def payloadLength : Byte := 0x10

/-- The 19-byte frame of a record (R98); nothing is escaped or stuffed (R99). -/
def frame (r : Record) : List Byte :=
  [startDelimiter, payloadLength] ++ payload r ++ [csum8 (payload r)]

/-- `frame_byte(i)` of R141, for a shadow `r` and an accumulator `acc`. DEDUCED, log 12: the rule gives no
byte for i = 19 to 31, and the function answers none there. -/
def frameByte (r : Record) (acc : Byte) (i : Nat) : Option Byte :=
  if i = 0 then some startDelimiter
  else if i = 1 then some payloadLength
  else if i ≤ 17 then (payload r)[i - 2]?
  else if i = 18 then some acc
  else none

/-- `unbe32`, the test oracle that reads four bytes back big-endian (R103). Not TPE hardware
(90_conflicts.md C2). -/
def unbe32 (b0 b1 b2 b3 : Byte) : Word :=
  b0.setWidth 32 <<< 24 ||| b1.setWidth 32 <<< 16 ||| b2.setWidth 32 <<< 8 ||| b3.setWidth 32

end Sys2Proof
end

