-- ==== Sys2Proof/Machine/Operands.lean ====
section
/-! DEFINITION. Operand access (30_encoding.md R73, 41_host_interface.md R131): the record registers, the
two records a state holds, and the fixed 8-bit slices of a shadow register. There is no other operand form:
no extension, truncation, shift or scaling. -/

namespace Sys2Proof.Machine

/-- The value of a record register (R111 to R114). -/
def readRecord (r : RecordReg) (s : State) : Word :=
  match r with
  | .ts => s.ts
  | .lat => s.lat
  | .lon => s.lon
  | .alt => s.alt

/-- A whole-word write of a record register: "A write to one record register never changes another"
(10_state.md R15, R119 to R122). -/
def writeRecord (r : RecordReg) (v : Word) (s : State) : State :=
  match r with
  | .ts => { s with ts := v }
  | .lat => { s with lat := v }
  | .lon => { s with lon := v }
  | .alt => { s with alt := v }

/-- The record the next accepted START latches (R128). -/
def State.record (s : State) : Record := ⟨s.ts, s.lat, s.lon, s.alt⟩

/-- The shadow record, the frame function's input in hardware (10_state.md R26, 40_frame_encoder.md R90). -/
def State.shadow (s : State) : Record := ⟨s.sts, s.slat, s.slon, s.salt⟩

/-- Byte `n` of a 32-bit field, bits `8n+7 : 8n`; byte 3 is the most significant (30_encoding.md R71, R73). -/
def fieldByte (x : Word) (n : Nat) : Byte := x.extractLsb' (8 * n) 8

end Sys2Proof.Machine
end

