-- ==== Sys2Proof/Machine/Port.lean ====
section
/-! DEFINITION. The output port's signals (10_state.md R27), functions of the state, and the observation of
a run (10_state.md R31, 42_sequencer.md R166) read from the trace. -/

namespace Sys2Proof.Machine

/-- TX_VALID (R27). -/
def State.txValid (s : State) : Bool := s.busy

/-- TX_DATA (R27): the byte at IDX while BUSY = 1, 0x00 while BUSY = 0 (92_eei_decisions.md D29). -/
def State.txData (s : State) : Option Byte :=
  if s.busy then frameByte s.shadow s.acc s.idx.toNat else some 0x00

/-- TX_LAST (R27). -/
def State.txLast (s : State) : Bool := s.busy && s.idx == 18

/-- The byte an observation carries. -/
def Obs.byte? : Obs → Option Byte
  | .transferred b _ => some b
  | .returned _ | .frameStarted => none

/-- The word an observation returns to the host. -/
def Obs.word? : Obs → Option Word
  | .returned w => some w
  | .transferred _ _ | .frameStarted => none

/-- Every byte the sink has received, in order. -/
def State.sent (s : State) : List Byte := s.trace.filterMap Obs.byte?

/-- Every word BusReads have returned, in order. -/
def State.returnedWords (s : State) : List Word := s.trace.filterMap Obs.word?

/-- One observation's effect on the grouping of R166: a START opens a group, a byte joins the newest. -/
def groupObs (groups : List (List Byte)) (o : Obs) : List (List Byte) :=
  match o with
  | .frameStarted => groups ++ [[]]
  | .transferred b _ => groups.dropLast ++ [(groups.getLast?.getD []) ++ [b]]
  | .returned _ => groups

/-- The transferred bytes "grouped from each accepted START into the following" transfers (R166). A group of
fewer than 19 bytes is a frame in progress or one a reset cut short (R201). -/
def State.frames (s : State) : List (List Byte) := s.trace.foldl groupObs []

end Sys2Proof.Machine
end

