-- ==== Sys2Proof/Machine/Ops.lean ====
section
/-! DEFINITION. The shared operations the meanings are made of. The block takes no exception: the nearest
thing is `raise`, and there is no return from it but CLEAR_STATUS and reset (60_exceptions.md R180, R188,
R189). -/

namespace Sys2Proof.Machine

/-- Adds one observation. -/
def observe (o : Obs) (s : State) : State := { s with trace := s.trace ++ [o] }

/-- `raise E` (60_exceptions.md R180): sets one sticky bit; "no state is saved, no mode changes, no control
transfer happens". -/
def raise (e : ErrorBit) (s : State) : State :=
  match e with
  | .busy => { s with errBusy := true }
  | .cmd => { s with errCmd := true }
  | .access => { s with errAccess := true }

/-- A BusRead returns `w` and changes no register (20_memory.md R49). -/
def returnWord (w : Word) (s : State) : State := observe (.returned w) s

/-- START accepted (R128): latch the record, clear the accumulator, IDX and DONE, set BUSY. The mark in the
trace is the observation's own grouping (R166). -/
def latchRecord (s : State) : State :=
  { s with sts := s.ts, slat := s.lat, slon := s.lon, salt := s.alt, acc := 0x00, idx := 0,
           done := false, busy := true, trace := s.trace ++ [.frameStarted] }

/-- START (R128): accepted while BUSY = 0, otherwise refused with ERR_BUSY and forgotten. -/
def startFrame (s : State) : State := if s.busy then raise .busy s else latchRecord s

/-- The command a WR_CMD's DATA names, run in the same event (R123, 30_encoding.md R69). -/
def runCommand (data : Word) (s : State) : State :=
  if data = 0x00000000 then s
  else if data = 0x00000001 then startFrame s
  else if data = 0x00000002 then clearSticky s
  else raise .cmd s

/-- `Emit(b)`: the byte goes to the sink with the TX_LAST of the moment (R141, 10_state.md R27). -/
def emit (b : Byte) (s : State) : State := observe (.transferred b s.txLast) s

/-- `require BUSY = 1` of SinkAccept (R140, R141), then the step's effect. -/
def sinkAccept (effect : State → State) (s : State) : Host.Outcome State Fault Refusal :=
  if s.busy then .next (effect s) else .refused .noSinkAcceptWhileIdle

/-- A header step (R142, R143): emit, move on; ACC is not touched. -/
def emitHeader (b : Byte) (next : BitVec 5) (s : State) : State := { emit b s with idx := next }

/-- A payload step (R144 to R159): emit, add the byte to ACC modulo 256, move on (R162). -/
def emitPayload (b : Byte) (next : BitVec 5) (s : State) : State :=
  { emit b s with acc := s.acc + b, idx := next }

/-- The trailer step (R160): emit ACC, which stays; the frame is over. -/
def emitTrailer (s : State) : State := { emit s.acc s with busy := false, done := true, idx := 0 }

/-- The Reset event (70_reset_and_hazards.md R200): every register of R30 takes its reset value. Bytes the
sink has accepted stay accepted (R201), so the trace stays, and so does what other agents still will do. -/
def resetEvent (s : State) : State :=
  { State.reset with pending := s.pending, choices := s.choices, trace := s.trace }

end Sys2Proof.Machine
end

