-- ==== Sys2Proof/Machine/Commands.lean ====
section
/-! DEFINITION. The four commands (41_host_interface.md section 5). Each is the DATA of a WR_CMD. -/

namespace Sys2Proof.Machine

/-- NOP (R127): nothing, at any time. -/
def execNop (s : State) : Host.Outcome State Fault Refusal :=
  .next s

/-- START (R128). -/
def execStart (s : State) : Host.Outcome State Fault Refusal :=
  .next (startFrame s)

/-- CLEAR_STATUS (R129). -/
def execClearStatus (s : State) : Host.Outcome State Fault Refusal :=
  .next (clearSticky s)

/-- CMD_RSVD (R130): the word is ignored, whatever it is, and raises ERR_CMD. -/
def execCmdRsvd (_op : Word) (s : State) : Host.Outcome State Fault Refusal :=
  .next (raise .cmd s)

end Sys2Proof.Machine
end

