-- ==== Sys2Proof/Machine/HostReads.lean ====
section
/-! DEFINITION. The eight host reads (41_host_interface.md section 3). A read has no side effect
(20_memory.md R49): it adds the word it returns to the trace and changes nothing else. -/

namespace Sys2Proof.Machine

/-- RD_TS (R111): `return TS`, not the shadow. -/
def execRdTs (s : State) : Host.Outcome State Fault Refusal :=
  .next (returnWord (readRecord .ts s) s)

/-- RD_LAT (R112): `return LAT`, the exact pattern. -/
def execRdLat (s : State) : Host.Outcome State Fault Refusal :=
  .next (returnWord (readRecord .lat s) s)

/-- RD_LON (R113): `return LON`. -/
def execRdLon (s : State) : Host.Outcome State Fault Refusal :=
  .next (returnWord (readRecord .lon s) s)

/-- RD_ALT (R114): `return ALT`. -/
def execRdAlt (s : State) : Host.Outcome State Fault Refusal :=
  .next (returnWord (readRecord .alt s) s)

/-- RD_CMD (R115): CMD is write-only, and reading it is no error. -/
def execRdCmd (s : State) : Host.Outcome State Fault Refusal :=
  .next (returnWord 0x00000000 s)

/-- RD_STATUS (R116): reading clears nothing. -/
def execRdStatus (s : State) : Host.Outcome State Fault Refusal :=
  .next (returnWord (statusWord s) s)

/-- RD_CSUM (R117): `return zext_32(ACC)`. -/
def execRdCsum (s : State) : Host.Outcome State Fault Refusal :=
  .next (returnWord (csumWord s) s)

/-- RD_RSVD7 (R118): the reserved word address 7 reads 0. -/
def execRdRsvd7 (s : State) : Host.Outcome State Fault Refusal :=
  .next (returnWord 0x00000000 s)

end Sys2Proof.Machine
end

