-- ==== Sys2Proof/Machine/HostWrites.lean ====
section
/-! DEFINITION. The eight host writes (41_host_interface.md section 4). -/

namespace Sys2Proof.Machine

/-- WR_TS (R119): `TS <- DATA`, allowed while BUSY = 1. -/
def execWrTs (data : Word) (s : State) : Host.Outcome State Fault Refusal :=
  .next (writeRecord .ts data s)

/-- WR_LAT (R120): `LAT <- DATA`, no range or NaN check. -/
def execWrLat (data : Word) (s : State) : Host.Outcome State Fault Refusal :=
  .next (writeRecord .lat data s)

/-- WR_LON (R121): `LON <- DATA`. -/
def execWrLon (data : Word) (s : State) : Host.Outcome State Fault Refusal :=
  .next (writeRecord .lon data s)

/-- WR_ALT (R122): `ALT <- DATA`. -/
def execWrAlt (data : Word) (s : State) : Host.Outcome State Fault Refusal :=
  .next (writeRecord .alt data s)

/-- WR_CMD (R123): DATA is decoded and the command runs in the same event. -/
def execWrCmd (data : Word) (s : State) : Host.Outcome State Fault Refusal :=
  .next (runCommand data s)

/-- WR_STATUS (R124): DATA is dropped. -/
def execWrStatus (_data : Word) (s : State) : Host.Outcome State Fault Refusal :=
  .next (raise .access s)

/-- WR_CSUM (R125): DATA is dropped and ACC is unchanged. -/
def execWrCsum (_data : Word) (s : State) : Host.Outcome State Fault Refusal :=
  .next (raise .access s)

/-- WR_RSVD7 (R126): DATA is dropped. -/
def execWrRsvd7 (_data : Word) (s : State) : Host.Outcome State Fault Refusal :=
  .next (raise .access s)

end Sys2Proof.Machine
end

