-- ==== Sys2Proof/Machine/Sequencer.lean ====
section
/-! DEFINITION. The emit steps of the frame sequencer (42_sequencer.md sections 2 to 4): what a SinkAccept does
at each IDX. The index that selects a step is decoded before it (Machine/Fetch.lean), so a meaning does not
test IDX again (log 7). -/

namespace Sys2Proof.Machine

/-- EMIT_DELIM (R142): the delimiter is not summed. -/
def execEmitDelim (s : State) : Host.Outcome State Fault Refusal :=
  sinkAccept (emitHeader startDelimiter 1) s

/-- EMIT_LEN (R143): the length byte is not summed. -/
def execEmitLen (s : State) : Host.Outcome State Fault Refusal :=
  sinkAccept (emitHeader payloadLength 2) s

/-- EMIT_TS_B3 (R144): STS[31:24], payload byte 0. -/
def execEmitTsB3 (s : State) : Host.Outcome State Fault Refusal :=
  sinkAccept (emitPayload (fieldByte s.sts 3) 3) s

/-- EMIT_TS_B2 (R145): STS[23:16], payload byte 1. -/
def execEmitTsB2 (s : State) : Host.Outcome State Fault Refusal :=
  sinkAccept (emitPayload (fieldByte s.sts 2) 4) s

/-- EMIT_TS_B1 (R146): STS[15:8], payload byte 2. -/
def execEmitTsB1 (s : State) : Host.Outcome State Fault Refusal :=
  sinkAccept (emitPayload (fieldByte s.sts 1) 5) s

/-- EMIT_TS_B0 (R147): STS[7:0], payload byte 3. -/
def execEmitTsB0 (s : State) : Host.Outcome State Fault Refusal :=
  sinkAccept (emitPayload (fieldByte s.sts 0) 6) s

/-- EMIT_LAT_B3 (R148): SLAT[31:24], payload byte 4. -/
def execEmitLatB3 (s : State) : Host.Outcome State Fault Refusal :=
  sinkAccept (emitPayload (fieldByte s.slat 3) 7) s

/-- EMIT_LAT_B2 (R149): SLAT[23:16], payload byte 5. -/
def execEmitLatB2 (s : State) : Host.Outcome State Fault Refusal :=
  sinkAccept (emitPayload (fieldByte s.slat 2) 8) s

/-- EMIT_LAT_B1 (R150): SLAT[15:8], payload byte 6. -/
def execEmitLatB1 (s : State) : Host.Outcome State Fault Refusal :=
  sinkAccept (emitPayload (fieldByte s.slat 1) 9) s

/-- EMIT_LAT_B0 (R151): SLAT[7:0], payload byte 7. -/
def execEmitLatB0 (s : State) : Host.Outcome State Fault Refusal :=
  sinkAccept (emitPayload (fieldByte s.slat 0) 10) s

/-- EMIT_LON_B3 (R152): SLON[31:24], payload byte 8. -/
def execEmitLonB3 (s : State) : Host.Outcome State Fault Refusal :=
  sinkAccept (emitPayload (fieldByte s.slon 3) 11) s

/-- EMIT_LON_B2 (R153): SLON[23:16], payload byte 9. -/
def execEmitLonB2 (s : State) : Host.Outcome State Fault Refusal :=
  sinkAccept (emitPayload (fieldByte s.slon 2) 12) s

/-- EMIT_LON_B1 (R154): SLON[15:8], payload byte 10. -/
def execEmitLonB1 (s : State) : Host.Outcome State Fault Refusal :=
  sinkAccept (emitPayload (fieldByte s.slon 1) 13) s

/-- EMIT_LON_B0 (R155): SLON[7:0], payload byte 11. -/
def execEmitLonB0 (s : State) : Host.Outcome State Fault Refusal :=
  sinkAccept (emitPayload (fieldByte s.slon 0) 14) s

/-- EMIT_ALT_B3 (R156): SALT[31:24], payload byte 12. -/
def execEmitAltB3 (s : State) : Host.Outcome State Fault Refusal :=
  sinkAccept (emitPayload (fieldByte s.salt 3) 15) s

/-- EMIT_ALT_B2 (R157): SALT[23:16], payload byte 13. -/
def execEmitAltB2 (s : State) : Host.Outcome State Fault Refusal :=
  sinkAccept (emitPayload (fieldByte s.salt 2) 16) s

/-- EMIT_ALT_B1 (R158): SALT[15:8], payload byte 14. -/
def execEmitAltB1 (s : State) : Host.Outcome State Fault Refusal :=
  sinkAccept (emitPayload (fieldByte s.salt 1) 17) s

/-- EMIT_ALT_B0 (R159): SALT[7:0], payload byte 15. -/
def execEmitAltB0 (s : State) : Host.Outcome State Fault Refusal :=
  sinkAccept (emitPayload (fieldByte s.salt 0) 18) s

/-- EMIT_CSUM (R160): the checksum byte is not added to ACC. -/
def execEmitCsum (s : State) : Host.Outcome State Fault Refusal :=
  sinkAccept emitTrailer s

/-- SEQ_INVALID at IDX = 19 (R161): a fault, never a byte. -/
def execSeqInvalid19 (_s : State) : Host.Outcome State Fault Refusal :=
  .fault .seqInvalid

/-- SEQ_INVALID at IDX = 20 to 23 (R161). -/
def execSeqInvalid20 (_lo : BitVec 2) (_s : State) : Host.Outcome State Fault Refusal :=
  .fault .seqInvalid

/-- SEQ_INVALID at IDX = 24 to 31 (R161). -/
def execSeqInvalid24 (_lo : BitVec 3) (_s : State) : Host.Outcome State Fault Refusal :=
  .fault .seqInvalid

end Sys2Proof.Machine
end

