-- ==== Sys2Proof/Syntax.lean ====
section
/-! DEFINITION. The instructions: one constructor per row of spec/opcode_table.json. Three formats
(30_encoding.md R65): BUS, a host transaction; CMD, a command word; SEQ, the emit step a sink acceptance
runs. The table's three SEQ_INVALID rows (IDX 19, 20 to 23, 24 to 31) are three constructors. -/

namespace Sys2Proof

/-- One instruction of the telemetry packet encoder. Operands are those of 30_encoding.md R73: the whole
32-bit DATA of a write. -/
inductive Instr where
  /-- RD_TS: BUS T = 0x0 (R111). -/
  | rdTs
  /-- RD_LAT: BUS T = 0x1 (R112). -/
  | rdLat
  /-- RD_LON: BUS T = 0x2 (R113). -/
  | rdLon
  /-- RD_ALT: BUS T = 0x3 (R114). -/
  | rdAlt
  /-- RD_CMD: BUS T = 0x4 (R115). -/
  | rdCmd
  /-- RD_STATUS: BUS T = 0x5 (R116). -/
  | rdStatus
  /-- RD_CSUM: BUS T = 0x6 (R117). -/
  | rdCsum
  /-- RD_RSVD7: BUS T = 0x7 (R118). -/
  | rdRsvd7
  /-- WR_TS: BUS T = 0x8 (R119). -/
  | wrTs (data : Word)
  /-- WR_LAT: BUS T = 0x9 (R120). -/
  | wrLat (data : Word)
  /-- WR_LON: BUS T = 0xA (R121). -/
  | wrLon (data : Word)
  /-- WR_ALT: BUS T = 0xB (R122). -/
  | wrAlt (data : Word)
  /-- WR_CMD: BUS T = 0xC (R123). -/
  | wrCmd (data : Word)
  /-- WR_STATUS: BUS T = 0xD (R124). -/
  | wrStatus (data : Word)
  /-- WR_CSUM: BUS T = 0xE (R125). -/
  | wrCsum (data : Word)
  /-- WR_RSVD7: BUS T = 0xF (R126). -/
  | wrRsvd7 (data : Word)
  /-- NOP: command word 0x00000000 (R127). -/
  | nop
  /-- START: command word 0x00000001 (R128). -/
  | start
  /-- CLEAR_STATUS: command word 0x00000002 (R129). -/
  | clearStatus
  /-- CMD_RSVD: a command word that is none of the three above (R130). -/
  | cmdRsvd (op : Word)
  /-- EMIT_DELIM: SEQ IDX = 0 (R142). -/
  | emitDelim
  /-- EMIT_LEN: SEQ IDX = 1 (R143). -/
  | emitLen
  /-- EMIT_TS_B3: SEQ IDX = 2 (R144). -/
  | emitTsB3
  /-- EMIT_TS_B2: SEQ IDX = 3 (R145). -/
  | emitTsB2
  /-- EMIT_TS_B1: SEQ IDX = 4 (R146). -/
  | emitTsB1
  /-- EMIT_TS_B0: SEQ IDX = 5 (R147). -/
  | emitTsB0
  /-- EMIT_LAT_B3: SEQ IDX = 6 (R148). -/
  | emitLatB3
  /-- EMIT_LAT_B2: SEQ IDX = 7 (R149). -/
  | emitLatB2
  /-- EMIT_LAT_B1: SEQ IDX = 8 (R150). -/
  | emitLatB1
  /-- EMIT_LAT_B0: SEQ IDX = 9 (R151). -/
  | emitLatB0
  /-- EMIT_LON_B3: SEQ IDX = 10 (R152). -/
  | emitLonB3
  /-- EMIT_LON_B2: SEQ IDX = 11 (R153). -/
  | emitLonB2
  /-- EMIT_LON_B1: SEQ IDX = 12 (R154). -/
  | emitLonB1
  /-- EMIT_LON_B0: SEQ IDX = 13 (R155). -/
  | emitLonB0
  /-- EMIT_ALT_B3: SEQ IDX = 14 (R156). -/
  | emitAltB3
  /-- EMIT_ALT_B2: SEQ IDX = 15 (R157). -/
  | emitAltB2
  /-- EMIT_ALT_B1: SEQ IDX = 16 (R158). -/
  | emitAltB1
  /-- EMIT_ALT_B0: SEQ IDX = 17 (R159). -/
  | emitAltB0
  /-- EMIT_CSUM: SEQ IDX = 18 (R160). -/
  | emitCsum
  /-- SEQ_INVALID, first row: SEQ IDX = 19 (R161). -/
  | seqInvalid19
  /-- SEQ_INVALID, second row: SEQ IDX = 20 to 23, `lo` its bits 1:0 (R161). -/
  | seqInvalid20 (lo : BitVec 2)
  /-- SEQ_INVALID, third row: SEQ IDX = 24 to 31, `lo` its bits 2:0 (R161). -/
  | seqInvalid24 (lo : BitVec 3)
  deriving DecidableEq, Repr

end Sys2Proof
end

