-- ==== Sys2Proof/Machine/Dispatch.lean ====
section
/-! DEFINITION. Every instruction's meaning, one arm each. -/

namespace Sys2Proof.Machine

def exec (i : Instr) (s : State) : Host.Outcome State Fault Refusal :=
  match i with
  -- host reads
  | .rdTs => Sys2Proof.Machine.execRdTs s
  | .rdLat => Sys2Proof.Machine.execRdLat s
  | .rdLon => Sys2Proof.Machine.execRdLon s
  | .rdAlt => Sys2Proof.Machine.execRdAlt s
  | .rdCmd => Sys2Proof.Machine.execRdCmd s
  | .rdStatus => Sys2Proof.Machine.execRdStatus s
  | .rdCsum => Sys2Proof.Machine.execRdCsum s
  | .rdRsvd7 => Sys2Proof.Machine.execRdRsvd7 s
  -- host writes
  | .wrTs data => Sys2Proof.Machine.execWrTs data s
  | .wrLat data => Sys2Proof.Machine.execWrLat data s
  | .wrLon data => Sys2Proof.Machine.execWrLon data s
  | .wrAlt data => Sys2Proof.Machine.execWrAlt data s
  | .wrCmd data => Sys2Proof.Machine.execWrCmd data s
  | .wrStatus data => Sys2Proof.Machine.execWrStatus data s
  | .wrCsum data => Sys2Proof.Machine.execWrCsum data s
  | .wrRsvd7 data => Sys2Proof.Machine.execWrRsvd7 data s
  -- commands
  | .nop => Sys2Proof.Machine.execNop s
  | .start => Sys2Proof.Machine.execStart s
  | .clearStatus => Sys2Proof.Machine.execClearStatus s
  | .cmdRsvd op => Sys2Proof.Machine.execCmdRsvd op s
  -- emit steps
  | .emitDelim => Sys2Proof.Machine.execEmitDelim s
  | .emitLen => Sys2Proof.Machine.execEmitLen s
  | .emitTsB3 => Sys2Proof.Machine.execEmitTsB3 s
  | .emitTsB2 => Sys2Proof.Machine.execEmitTsB2 s
  | .emitTsB1 => Sys2Proof.Machine.execEmitTsB1 s
  | .emitTsB0 => Sys2Proof.Machine.execEmitTsB0 s
  | .emitLatB3 => Sys2Proof.Machine.execEmitLatB3 s
  | .emitLatB2 => Sys2Proof.Machine.execEmitLatB2 s
  | .emitLatB1 => Sys2Proof.Machine.execEmitLatB1 s
  | .emitLatB0 => Sys2Proof.Machine.execEmitLatB0 s
  | .emitLonB3 => Sys2Proof.Machine.execEmitLonB3 s
  | .emitLonB2 => Sys2Proof.Machine.execEmitLonB2 s
  | .emitLonB1 => Sys2Proof.Machine.execEmitLonB1 s
  | .emitLonB0 => Sys2Proof.Machine.execEmitLonB0 s
  | .emitAltB3 => Sys2Proof.Machine.execEmitAltB3 s
  | .emitAltB2 => Sys2Proof.Machine.execEmitAltB2 s
  | .emitAltB1 => Sys2Proof.Machine.execEmitAltB1 s
  | .emitAltB0 => Sys2Proof.Machine.execEmitAltB0 s
  | .emitCsum => Sys2Proof.Machine.execEmitCsum s
  | .seqInvalid19 => Sys2Proof.Machine.execSeqInvalid19 s
  | .seqInvalid20 lo => Sys2Proof.Machine.execSeqInvalid20 lo s
  | .seqInvalid24 lo => Sys2Proof.Machine.execSeqInvalid24 lo s

end Sys2Proof.Machine
end

