-- ==== Sys2Proof/Config.lean ====
section
/-! DEFINITION. What the spec leaves open. The block has one open value that a run can show: the serial
order of events that happen at the same moment (20_memory.md R54). `TIMING` (00_scope.md R8) is read by
no rule and has no place here; `N_INSTANCES` is an argument of `Platform.reset`. -/

namespace Sys2Proof.Config

/-- DESIGN CHOICE, log 2: which of the events still waiting at one moment takes effect next, as a number
taken modulo how many there are, for the n-th such choice of a run. It has no value any proof can see, so
a claim holds for every serial order, as R54 asks ("The spec does not say which. A model must admit both
orders"). Safe. -/
opaque serialOrder : Nat → Nat

end Sys2Proof.Config
end

