-- ==== Sys2Proof/WellFormed.lean ====
section
/-! DEFINITION. Which terms of `Instr` some encoding stands for. The types carry every width, so the one
check left is that CMD_RSVD does not carry a defined command word. -/

namespace Sys2Proof

/-- The three defined command words (30_encoding.md R69). -/
def definedCommand (op : Word) : Bool := op == 0 || op == 1 || op == 2

/-- Only CMD_RSVD has a forbidden operand: "DATA not 0x00000000, 0x00000001 or 0x00000002" (R130). -/
def Instr.wf : Instr → Bool
  | .cmdRsvd op => !definedCommand op
  | .rdTs | .rdLat | .rdLon | .rdAlt | .rdCmd | .rdStatus | .rdCsum | .rdRsvd7
  | .wrTs _ | .wrLat _ | .wrLon _ | .wrAlt _ | .wrCmd _ | .wrStatus _ | .wrCsum _ | .wrRsvd7 _
  | .nop | .start | .clearStatus | .emitDelim | .emitLen
  | .emitTsB3 | .emitTsB2 | .emitTsB1 | .emitTsB0 | .emitLatB3 | .emitLatB2 | .emitLatB1 | .emitLatB0
  | .emitLonB3 | .emitLonB2 | .emitLonB1 | .emitLonB0 | .emitAltB3 | .emitAltB2 | .emitAltB1 | .emitAltB0
  | .emitCsum | .seqInvalid19 | .seqInvalid20 _ | .seqInvalid24 _ => true

end Sys2Proof
end

