-- ==== Sys2Proof/Decode.lean ====
section
/-! DEFINITION. The decoders of 30_encoding.md, one for each thing it says is encoded (host transaction,
command word, sequencer step, frame), then the encoder written from the same tables. "Each is decoded
completely, with no don't care bits" (R65). -/

namespace Sys2Proof

/-- An encoded instruction in its format's own code space (R65). The three spaces overlap as numbers: 0 is
RD_TS in BUS, NOP in CMD and EMIT_DELIM in SEQ. -/
inductive Code where
  /-- BUS: the 4-bit code T = W ++ WA and the 32-bit DATA (R66). -/
  | bus (t : BitVec 4) (data : Word)
  /-- CMD: the whole command word (R68). -/
  | cmd (op : Word)
  /-- SEQ: the 5-bit IDX (R70). -/
  | seq (idx : BitVec 5)
  deriving DecidableEq, Repr

/-- Why a number or a code is no instruction. -/
inductive DecodeError where
  /-- A read code with DATA not 0: "A read carries no DATA" (R66). Log 14; safe. -/
  | readCarriesData
  /-- A word with bits above its format's width (R65). Log 8; safe. -/
  | tooWide
  /-- No format of R65 has this many bits. Log 8; safe. -/
  | noSuchFormat
  deriving DecidableEq, Repr

/-- The read half (W = 0) of the BUS table (R67). -/
def decodeRead (wa : BitVec 3) : Instr :=
  match wa.toNat with
  | 0 => .rdTs
  | 1 => .rdLat
  | 2 => .rdLon
  | 3 => .rdAlt
  | 4 => .rdCmd
  | 5 => .rdStatus
  | 6 => .rdCsum
  | _ => .rdRsvd7

/-- The write half (W = 1) of the BUS table (R67). -/
def decodeWrite (wa : BitVec 3) (data : Word) : Instr :=
  match wa.toNat with
  | 0 => .wrTs data
  | 1 => .wrLat data
  | 2 => .wrLon data
  | 3 => .wrAlt data
  | 4 => .wrCmd data
  | 5 => .wrStatus data
  | 6 => .wrCsum data
  | _ => .wrRsvd7 data

/-- BUS (R66, R67): bit 3 of T is W, bits 2:0 are WA. -/
def decodeBus (t : BitVec 4) (data : Word) : Except DecodeError Instr :=
  if t.getLsbD 3 then .ok (decodeWrite (t.extractLsb' 0 3) data)
  else if data = 0 then .ok (decodeRead (t.extractLsb' 0 3))
  else .error .readCarriesData

/-- CMD (R69): compared in all 32 bits (R68). -/
def decodeCmd (op : Word) : Instr :=
  if op = 0 then .nop
  else if op = 1 then .start
  else if op = 2 then .clearStatus
  else .cmdRsvd op

/-- SEQ (R71). -/
def decodeSeq (idx : BitVec 5) : Instr :=
  match idx.toNat with
  | 0 => .emitDelim
  | 1 => .emitLen
  | 2 => .emitTsB3
  | 3 => .emitTsB2
  | 4 => .emitTsB1
  | 5 => .emitTsB0
  | 6 => .emitLatB3
  | 7 => .emitLatB2
  | 8 => .emitLatB1
  | 9 => .emitLatB0
  | 10 => .emitLonB3
  | 11 => .emitLonB2
  | 12 => .emitLonB1
  | 13 => .emitLonB0
  | 14 => .emitAltB3
  | 15 => .emitAltB2
  | 16 => .emitAltB1
  | 17 => .emitAltB0
  | 18 => .emitCsum
  | 19 => .seqInvalid19
  | n => if n < 24 then .seqInvalid20 (BitVec.ofNat 2 n) else .seqInvalid24 (BitVec.ofNat 3 n)

/-- The decoder: total, and only a read that carries data is rejected. -/
def decode : Code → Except DecodeError Instr
  | .bus t data => decodeBus t data
  | .cmd op => .ok (decodeCmd op)
  | .seq idx => .ok (decodeSeq idx)

/-- The code in `w`, a number of `nbits` bits numbered as spec/opcode_table.json numbers them. DESIGN CHOICE,
log 8: 4, 36 and 40 bits are BUS (T in bits 3:0, DATA in bits 35:4), 32 bits are CMD, 5 bits are SEQ. In a
whole byte (8 bits) the numbers below 16 are BUS and those from 16 to 31 SEQ: the table's two code spaces
overlap there and a number alone cannot tell them apart. -/
def codeOfTableWord (nbits w : Nat) : Except DecodeError Code :=
  if nbits = 4 ∨ nbits = 8 ∧ w < 16 then
    if w < 16 then .ok (.bus (BitVec.ofNat 4 w) 0) else .error .tooWide
  else if nbits = 5 ∨ nbits = 8 then
    if w < 32 then .ok (.seq (BitVec.ofNat 5 w)) else .error .tooWide
  else if nbits = 32 then
    if w < 2 ^ 32 then .ok (.cmd (BitVec.ofNat 32 w)) else .error .tooWide
  else if nbits = 36 ∨ nbits = 40 then
    if w < 2 ^ 36 then .ok (.bus (BitVec.ofNat 4 w) (BitVec.ofNat 32 (w / 16))) else .error .tooWide
  else .error .noSuchFormat

/-- The instruction the decoder reads from an opcode-table word. -/
def decodeTableWord (nbits w : Nat) : Option Instr :=
  match codeOfTableWord nbits w with
  | .ok c => (decode c).toOption
  | .error _ => none

/-- The encoder, from the tables of R67, R69 and R71. -/
def encode : Instr → Code
  | .rdTs => .bus 0x0 0
  | .rdLat => .bus 0x1 0
  | .rdLon => .bus 0x2 0
  | .rdAlt => .bus 0x3 0
  | .rdCmd => .bus 0x4 0
  | .rdStatus => .bus 0x5 0
  | .rdCsum => .bus 0x6 0
  | .rdRsvd7 => .bus 0x7 0
  | .wrTs data => .bus 0x8 data
  | .wrLat data => .bus 0x9 data
  | .wrLon data => .bus 0xA data
  | .wrAlt data => .bus 0xB data
  | .wrCmd data => .bus 0xC data
  | .wrStatus data => .bus 0xD data
  | .wrCsum data => .bus 0xE data
  | .wrRsvd7 data => .bus 0xF data
  | .nop => .cmd 0x00000000
  | .start => .cmd 0x00000001
  | .clearStatus => .cmd 0x00000002
  | .cmdRsvd op => .cmd op
  | .emitDelim => .seq 0
  | .emitLen => .seq 1
  | .emitTsB3 => .seq 2
  | .emitTsB2 => .seq 3
  | .emitTsB1 => .seq 4
  | .emitTsB0 => .seq 5
  | .emitLatB3 => .seq 6
  | .emitLatB2 => .seq 7
  | .emitLatB1 => .seq 8
  | .emitLatB0 => .seq 9
  | .emitLonB3 => .seq 10
  | .emitLonB2 => .seq 11
  | .emitLonB1 => .seq 12
  | .emitLonB0 => .seq 13
  | .emitAltB3 => .seq 14
  | .emitAltB2 => .seq 15
  | .emitAltB1 => .seq 16
  | .emitAltB0 => .seq 17
  | .emitCsum => .seq 18
  | .seqInvalid19 => .seq 19
  | .seqInvalid20 lo => .seq ((0b101#3 ++ lo : BitVec 5))
  | .seqInvalid24 lo => .seq ((0b11#2 ++ lo : BitVec 5))

/-- A code as a table word: how many bits, and the number (the numbering of `codeOfTableWord`). -/
def Code.toTableWord : Code → Nat × Nat
  | .bus t data => (36, t.toNat + 16 * data.toNat)
  | .cmd op => (32, op.toNat)
  | .seq idx => (5, idx.toNat)

/-- Why a byte sequence is no frame (R72). A receiver's reasons, not the TPE's: it has no receive path
(R5, R103). Log 18. -/
inductive FrameError where
  /-- Not 19 bytes. -/
  | wrongSize
  /-- Byte 0 is not 0x7E. -/
  | badDelimiter
  /-- Byte 1 is not 0x10. -/
  | badLength
  /-- Byte 18 is not the sum of bytes 2 to 17 modulo 256. -/
  | badChecksum
  deriving DecidableEq, Repr

/-- The decoder of the output frame, a test oracle (R72, R103): fixed 19 bytes, no scan for delimiters (R75). -/
def decodeFrame : List Byte → Except FrameError Record
  | [d, n, t3, t2, t1, t0, a3, a2, a1, a0, o3, o2, o1, o0, h3, h2, h1, h0, c] =>
    if d ≠ startDelimiter then .error .badDelimiter
    else if n ≠ payloadLength then .error .badLength
    else if c ≠ csum8 [t3, t2, t1, t0, a3, a2, a1, a0, o3, o2, o1, o0, h3, h2, h1, h0] then .error .badChecksum
    else .ok ⟨unbe32 t3 t2 t1 t0, unbe32 a3 a2 a1 a0, unbe32 o3 o2 o1 o0, unbe32 h3 h2 h1 h0⟩
  | _ => .error .wrongSize

end Sys2Proof
end

