-- ==== Sys2Proof/Machine/Fetch.lean ====
section
/-! DEFINITION. Which event happens next, which instruction it runs, and how a table word is placed so that
the next step runs it. The TPE fetches no instructions (20_memory.md R57): an agent's event selects one. -/

namespace Sys2Proof.Machine

/-- What an event does. -/
inductive Action where
  /-- Run an instruction of the table. -/
  | run (i : Instr)
  /-- Perform the Reset event (R200). -/
  | resetAll
  /-- Nothing happens: TX_READY while TX_VALID = 0 transfers nothing (R27, R140). -/
  | noTransfer
  deriving DecidableEq, Repr

/-- The first pending event, the others of its moment, and the later moments. -/
def nextMoment : List Moment → Option (Event × List Event × List Moment)
  | [] => none
  | [] :: rest => nextMoment rest
  | (e :: es) :: rest => some (e, es, rest)

/-- The event at place `k` of a moment, and the moment without it. -/
def takeEvent (e : Event) (es : List Event) (k : Nat) : Event × List Event :=
  ((e :: es).getD k e, (e :: es).eraseIdx k)

/-- Takes the next event from `pending`. One event alone at its moment is taken as it is; among several, the
free value of Config picks (R54). -/
def fetch (s : State) : Option (Event × State) :=
  match nextMoment s.pending with
  | none => none
  | some (e, [], rest) => some (e, { s with pending := rest })
  | some (e, es, rest) =>
    let taken := takeEvent e es (Config.serialOrder s.choices % (es.length + 1))
    some (taken.1, { s with pending := taken.2 :: rest, choices := s.choices + 1 })

/-- The instruction an event selects: the BUS decode of a host transaction (R67), the SEQ decode of IDX on a
sink acceptance, "only while BUSY = 1" (R70, R140). -/
def selectAction (s : State) : Event → Action
  | .busRead wa => .run (decodeRead wa)
  | .busWrite wa data => .run (decodeWrite wa data)
  | .sinkReady => if s.busy then .run (decodeSeq s.idx) else .noTransfer
  | .reset => .resetAll

/-- The host event of a BUS code (R66): W is bit 3 of T. -/
def busEvent (t : BitVec 4) (data : Word) : Event :=
  if t.getLsbD 3 then .busWrite (t.extractLsb' 0 3) data else .busRead (t.extractLsb' 0 3)

/-- Places a table word so that the very next step runs it (log 10): a BUS code as a host transaction, a
command as the DATA of a WR_CMD, a SEQ code as IDX with BUSY = 1 and the sink ready. -/
def stageWord (s : State) (nbits w : Nat) : State :=
  match codeOfTableWord nbits w with
  | .ok (.bus t data) => { s with pending := [busEvent t data] :: s.pending }
  | .ok (.cmd op) => { s with pending := [.busWrite 4 op] :: s.pending }
  | .ok (.seq idx) => { s with pending := [.sinkReady] :: s.pending, busy := true, idx := idx }
  | .error _ => s

end Sys2Proof.Machine
end

