-- ==== Sys2Proof/Machine/Step.lean ====
section
/-! DEFINITION. One step: the next pending event takes effect (20_memory.md R52). With no event nothing
changes: the TPE "takes no step of its own" (00_scope.md R9). -/

namespace Sys2Proof.Machine

/-- One event: "the state after each event is a function of the state before it and the event (with its data)"
(20_memory.md R52). -/
def perform (e : Event) (s : State) : Host.Outcome State Fault Refusal :=
  match selectAction s e with
  | .run i => exec i s
  | .resetAll => .next (resetEvent s)
  | .noTransfer => .next s

/-- The next event of the total order R52. Three outcomes: the next state; the fault SeqInvalid; a refusal, which
no event leads to. -/
def step (s : State) : Host.Outcome State Fault Refusal :=
  match fetch s with
  | none => .next s
  | some (e, s') => perform e s'

/-- `s` with an opcode-table word placed so that the next step runs it. -/
def State.withFetchWord (s : State) (nbits w : Nat) : State := stageWord s nbits w

end Sys2Proof.Machine
end

