-- ==== Sys2Proof/Machine/Platform.lean ====
section
/-! DEFINITION. Several TPE instances on one platform (60_exceptions.md R193): they share no state and have no
signals between them. Their number is the open parameter N_INSTANCES (00_scope.md R8), an argument. Log 17. -/

namespace Sys2Proof.Machine

/-- The instances, each with its own registers, sequencer and output port. DESIGN CHOICE, log 17: `choices`
counts the free choices of R54 made at all the instances together, so that no two races of the platform ask the
free value at one place, and nothing ties the order one instance's race takes to the order of another's. It is
no register of any instance. -/
structure Platform where
  instances : List State
  choices : Nat
  deriving DecidableEq, Repr

/-- The platform after every instance is reset, with no choice made (DESIGN CHOICE, logs 2 and 17). -/
def Platform.reset (nInstances : Nat) : Platform := ⟨List.replicate nInstances State.reset, 0⟩

/-- One event at instance `k`. The instance's own count of choices is set to the platform's before the step, and
the platform's to it after (log 17). Where there is no such instance there is no agent to act on it. -/
def Platform.step (k : Nat) (p : Platform) : Host.Outcome Platform Fault Refusal :=
  match p.instances[k]? with
  | none => .next p
  | some s =>
    match Machine.step { s with choices := p.choices } with
    | .next t => .next ⟨p.instances.set k t, t.choices⟩
    | .fault f => .fault f
    | .refused r => .refused r

end Sys2Proof.Machine
end

