-- ==== Sys2Proof/Machine/Script.lean ====
section
/-! DEFINITION. Host scripts (30_encoding.md section 9): what each line and pseudo-instruction stands for as
events. `f32(x)` is the assembler's conversion (R76), so an immediate here is a pattern. The loops of
POLL_IDLE and POLL_DONE are "in the host, not in the TPE" (R77): a script says how many reads they made, and
`pollIdleExits` and `pollDoneExits` say when they stop. Log 16. -/

namespace Sys2Proof.Machine

/-- `<reg>` of R76. -/
inductive HostReg where
  | ts
  | lat
  | lon
  | alt
  | cmd
  | status
  | csum
  | rsvd7
  deriving DecidableEq, Repr

/-- "with WA 0 to 7 in that order" (R76). -/
def HostReg.wa : HostReg → BitVec 3
  | .ts => 0
  | .lat => 1
  | .lon => 2
  | .alt => 3
  | .cmd => 4
  | .status => 5
  | .csum => 6
  | .rsvd7 => 7

/-- A script line (R76, R77, R78). -/
inductive ScriptLine where
  /-- `RD <reg>`. -/
  | rd (reg : HostReg)
  /-- `WR <reg>, <imm32>`. -/
  | wr (reg : HostReg) (imm : Word)
  /-- `CMD NOP`. -/
  | cmdNop
  /-- `CMD START`. -/
  | cmdStart
  /-- `CMD CLEAR_STATUS`. -/
  | cmdClearStatus
  /-- `CMD <imm32>`. -/
  | cmd (imm : Word)
  /-- `SEND <ts>, <lat>, <lon>, <alt>`. -/
  | send (ts lat lon alt : Word)
  /-- `CLEAR`. -/
  | clear
  /-- `POLL_IDLE`, which made `reads` reads. -/
  | pollIdle (reads : Nat)
  /-- `POLL_DONE`, which made `reads` reads. -/
  | pollDone (reads : Nat)
  /-- `@ACCEPT <n>`. -/
  | accept (n : Nat)
  /-- `@RESET`. -/
  | reset
  deriving DecidableEq, Repr

/-- The events of a line, in order (R76, R77, R78). -/
def ScriptLine.events : ScriptLine → List Event
  | .rd reg => [.busRead reg.wa]
  | .wr reg imm => [.busWrite reg.wa imm]
  | .cmdNop => [.busWrite 4 0x00000000]
  | .cmdStart => [.busWrite 4 0x00000001]
  | .cmdClearStatus => [.busWrite 4 0x00000002]
  | .cmd imm => [.busWrite 4 imm]
  | .send ts lat lon alt =>
    [.busWrite 0 ts, .busWrite 1 lat, .busWrite 2 lon, .busWrite 3 alt, .busWrite 4 0x00000001]
  | .clear => [.busWrite 4 0x00000002]
  | .pollIdle reads => List.replicate reads (.busRead 5)
  | .pollDone reads => List.replicate reads (.busRead 5)
  | .accept n => List.replicate n .sinkReady
  | .reset => [.reset]

/-- POLL_IDLE stops when bit 0 of the returned word is 0 (R77). -/
def pollIdleExits (status : Word) : Bool := !status.getLsbD 0

/-- POLL_DONE stops when bit 1 of the returned word is 1 (R77). -/
def pollDoneExits (status : Word) : Bool := status.getLsbD 1

/-- A script as moments of one event each: "the lines run in the order written, and that order is the total
order of rule R52" (R78). -/
def assemble (script : List ScriptLine) : List Moment :=
  (script.flatMap ScriptLine.events).map fun e => [e]

/-- `s` with a script placed after what is already pending. -/
def loadScript (script : List ScriptLine) (s : State) : State :=
  { s with pending := s.pending ++ assemble script }

end Sys2Proof.Machine
end

