-- ==== Sys2Proof/Safety.lean ====
section
/-! DEFINITION. What counts as a safe run: the invariant of 10_state.md R29, the reachable states, and runs
that stop nowhere. -/

namespace Sys2Proof.Machine

/-- R29: the five items, in its order. `payload` and the sum are those of 40_frame_encoder.md R94 and R95,
applied to the shadow. -/
abbrev State.Inv (s : State) : Prop :=
  (s.busy = false → s.idx = 0) ∧
  (s.busy = true → s.idx.toNat ≤ 18) ∧
  (s.busy = true → 2 ≤ s.idx.toNat → s.idx.toNat ≤ 18 →
    s.acc = csum8 ((payload s.shadow).take (s.idx.toNat - 2))) ∧
  (s.busy = true → s.idx.toNat ≤ 2 → s.acc = 0) ∧
  (s.busy = true → s.done = false)

/-- The state a step answers with, if it does not stop. -/
def nextState? (o : Host.Outcome State Fault Refusal) : Option State :=
  match o with
  | .next s => some s
  | .fault _ => none
  | .refused _ => none

/-- The states a run can reach: "A model begins every run at the state after a Reset event"
(70_reset_and_hazards.md R203), other agents may decide on any events at any time, and the count that the free
choices of R54 are read at may stand anywhere at any time (another instance's races move it, log 17). -/
inductive Reachable : State → Prop where
  | afterReset (moments : List Moment) (choices : Nat) :
      Reachable { State.reset with pending := moments, choices := choices }
  | agentsAct {s : State} (moments : List Moment) (choices : Nat) :
      Reachable s → Reachable { s with pending := moments, choices := choices }
  | afterStep {s t : State} : Reachable s → step s = .next t → Reachable t

/-- No event of these moments is a reset. -/
abbrev noReset (moments : List Moment) : Prop := ∀ e ∈ moments.flatten, e ≠ .reset

/-- How often the sink is ready in these moments. -/
def acceptances (moments : List Moment) : Nat := moments.flatten.count .sinkReady

/-- Whether a write raises an error, the complete list of 60_exceptions.md R181: a START while BUSY = 1, a
reserved command, a write to WA 5, 6 or 7. -/
def raisesError (busy : Bool) (wa : BitVec 3) (data : Word) : Bool :=
  (wa == 4 && ((busy && data == 1) || !definedCommand data)) || wa == 5 || wa == 6 || wa == 7

/-- Quiescent: no frame in progress (42_sequencer.md R166). -/
def State.quiescent (s : State) : Bool := !s.busy

/-- What the trace says of the bytes sent (20_memory.md R60, 70_reset_and_hazards.md R201, 42_sequencer.md R166):
each group is a prefix of a frame, the newest, while BUSY = 1, is the first IDX bytes of the shadow's frame, and
the groups joined are all the bytes sent. -/
def State.SentByFrames (s : State) : Prop :=
  (∀ g ∈ s.frames, ∃ r : Record, g <+: frame r) ∧
  (s.busy = true → s.frames.getLast? = some ((frame s.shadow).take s.idx.toNat)) ∧
  s.frames.flatten = s.sent

/-- Whether an event is a host transaction. -/
def Event.isHost : Event → Bool
  | .busRead _ | .busWrite _ _ => true
  | .sinkReady | .reset => false

/-- A run is finished "when BUSY = 0 and the host has no further transaction" (42_sequencer.md R166). A stalled
frame is not (R165). -/
def State.finished (s : State) : Bool := s.quiescent && s.pending.flatten.all fun e => !e.isHost

/-- A payload step `i` at index `k`, for the slice `b` of the shadow it names (42_sequencer.md R144 to R159): `k`
decodes to it; where BUSY = 1 and IDX = `k` it completes, sends `b` with TX_LAST = 0, adds it to ACC with the
carry dropped, moves IDX on, and changes nothing else. -/
def payloadStepMeets (i : Instr) (k : BitVec 5) (b : State → Byte) : Prop :=
  decodeSeq k = i ∧ ∀ s : State, s.busy = true → s.idx = k →
    exec i s = .next { s with
      trace := s.trace ++ [.transferred (b s) false]
      acc := BitVec.ofNat 8 ((s.acc.toNat + (b s).toNat) % 256)
      idx := BitVec.ofNat 5 (k.toNat + 1) }

/-- `k` steps from `s`. -/
abbrev runSteps (k : Nat) (s : State) : Host.Outcome State Fault Refusal := Host.Core.run core k s

end Sys2Proof.Machine
end

