-- ==== Sys2Proof/Certificates/Slice0/Obligations.lean ====
section
/-! DEFINITION. The statements for the provers, grouped as the rules are. An equation
`exec i s = .next (a record update of s)` says that the instruction completes, what it writes, and that every
other register, the pending events and the earlier trace are unchanged. -/

open Sys2Proof Sys2Proof.Machine

/-! ### Events at the same moment as an acceptance -/

/-- R209 (and R54): a read at the same moment as an acceptance returns the word of before or of after that
acceptance, and the acceptance happens all the same. -/
def Obligations.ReadAgainstAnAcceptance : Prop :=
  ∀ (s : State) (wa : BitVec 3) (rest : List Moment), s.busy = true → s.idx.toNat ≤ 18 →
    s.pending = [.busRead wa, .sinkReady] :: rest →
    ∃ (before after : Word) (u v t : State),
      exec (decodeRead wa) s = .next { s with trace := s.trace ++ [.returned before] } ∧
      exec (decodeSeq s.idx) s = .next u ∧
      exec (decodeRead wa) u = .next v ∧ v.returnedWords = s.returnedWords ++ [after] ∧
      runSteps 2 s = .next t ∧ t.pending = rest ∧ t.sent = u.sent ∧ t.acc = u.acc ∧ t.idx = u.idx ∧
      (t.returnedWords = s.returnedWords ++ [before] ∨ t.returnedWords = s.returnedWords ++ [after])

/-- R206: START at the moment of the acceptance of byte 18. The two serial orders have the two outcomes the
rule gives, and the moment itself has no third. -/
def Obligations.StartAgainstTheLastByte : Prop :=
  ∀ (s : State) (rest : List Moment), s.busy = true → s.idx = 18 → s.errBusy = false →
    ∃ a b : State,
      runSteps 2 { s with pending := [.sinkReady] :: [.busWrite 4 0x00000001] :: rest } = .next a ∧
      (a.busy = true ∧ a.idx = 0 ∧ a.errBusy = false ∧ a.done = false ∧ a.shadow = s.record) ∧
      runSteps 2 { s with pending := [.busWrite 4 0x00000001] :: [.sinkReady] :: rest } = .next b ∧
      (b.busy = false ∧ b.idx = 0 ∧ b.errBusy = true ∧ b.done = true ∧ b.shadow = s.shadow) ∧
      (runSteps 2 { s with pending := [.sinkReady, .busWrite 4 0x00000001] :: rest } =
          .next { a with choices := s.choices + 1 } ∨
        runSteps 2 { s with pending := [.sinkReady, .busWrite 4 0x00000001] :: rest } =
          .next { b with choices := s.choices + 1 })

/-- R207: CLEAR_STATUS at the moment of the acceptance of byte 18: DONE ends up 0 or 1. -/
def Obligations.ClearAgainstTheLastByte : Prop :=
  ∀ (s : State) (rest : List Moment), s.busy = true → s.idx = 18 →
    ∃ a b : State,
      runSteps 2 { s with pending := [.sinkReady] :: [.busWrite 4 0x00000002] :: rest } = .next a ∧
      (a.busy = false ∧ a.done = false) ∧
      runSteps 2 { s with pending := [.busWrite 4 0x00000002] :: [.sinkReady] :: rest } = .next b ∧
      (b.busy = false ∧ b.done = true) ∧
      (runSteps 2 { s with pending := [.sinkReady, .busWrite 4 0x00000002] :: rest } =
          .next { a with choices := s.choices + 1 } ∨
        runSteps 2 { s with pending := [.sinkReady, .busWrite 4 0x00000002] :: rest } =
          .next { b with choices := s.choices + 1 })

/-! ### Host reads -/

/-- R111 to R114: T = 0x0 to 0x3; a read returns its record register, the exact pattern and not the shadow,
and changes nothing; the word written last is the word read; after reset, and until a write, each reads 0. -/
def Obligations.RecordReadsReturnTheRegister : Prop :=
  (decodeBus 0x0 0 = .ok .rdTs ∧ decodeBus 0x1 0 = .ok .rdLat ∧
    decodeBus 0x2 0 = .ok .rdLon ∧ decodeBus 0x3 0 = .ok .rdAlt) ∧
  (∀ s : State,
    exec .rdTs s = .next { s with trace := s.trace ++ [.returned s.ts] } ∧
    exec .rdLat s = .next { s with trace := s.trace ++ [.returned s.lat] } ∧
    exec .rdLon s = .next { s with trace := s.trace ++ [.returned s.lon] } ∧
    exec .rdAlt s = .next { s with trace := s.trace ++ [.returned s.alt] }) ∧
  (∀ (s t : State) (v : Word),
    (exec (.wrTs v) s = .next t → exec .rdTs t = .next { t with trace := t.trace ++ [.returned v] }) ∧
    (exec (.wrLat v) s = .next t → exec .rdLat t = .next { t with trace := t.trace ++ [.returned v] }) ∧
    (exec (.wrLon v) s = .next t → exec .rdLon t = .next { t with trace := t.trace ++ [.returned v] }) ∧
    (exec (.wrAlt v) s = .next t → exec .rdAlt t = .next { t with trace := t.trace ++ [.returned v] })) ∧
  (∀ (s s' t : State) (e : Event), fetch s = some (e, s') → step s = .next t → e ≠ .reset →
    ((∀ v, e ≠ .busWrite 0 v) → t.ts = s.ts) ∧ ((∀ v, e ≠ .busWrite 1 v) → t.lat = s.lat) ∧
    ((∀ v, e ≠ .busWrite 2 v) → t.lon = s.lon) ∧ ((∀ v, e ≠ .busWrite 3 v) → t.alt = s.alt)) ∧
  (State.reset.ts = 0 ∧ State.reset.lat = 0 ∧ State.reset.lon = 0 ∧ State.reset.alt = 0)

/-- R116: T = 0x5; the status word by the rule's own formula; reading clears nothing; while idle, in a state
that meets R29, bits 12:8 are 0; at the moment of an acceptance the word is that of before or of after it. -/
def Obligations.StatusReadReturnsTheStatusWord : Prop :=
  decodeBus 0x5 0 = .ok .rdStatus ∧
  (∀ s : State, ∃ w : Word,
    w = s.idx.setWidth 32 <<< 8 ||| (BitVec.ofBool s.errAccess).setWidth 32 <<< 4 |||
      (BitVec.ofBool s.errCmd).setWidth 32 <<< 3 ||| (BitVec.ofBool s.errBusy).setWidth 32 <<< 2 |||
      (BitVec.ofBool s.done).setWidth 32 <<< 1 ||| (BitVec.ofBool s.busy).setWidth 32 ∧
    exec .rdStatus s = .next { s with trace := s.trace ++ [.returned w] } ∧
    (s.Inv → s.busy = false → w.extractLsb' 8 5 = 0)) ∧
  Obligations.ReadAgainstAnAcceptance

/-- R117: T = 0x6; ACC zero-extended; during a frame the partial sum of the payload bytes accepted so far, after
a completed frame that frame's checksum, after reset 0. -/
def Obligations.ChecksumReadReturnsTheAccumulator : Prop :=
  decodeBus 0x6 0 = .ok .rdCsum ∧
  (∀ s : State, exec .rdCsum s = .next { s with trace := s.trace ++ [.returned (s.acc.setWidth 32)] }) ∧
  (∀ s : State, Reachable s → s.busy = true →
    s.acc = csum8 ((payload s.shadow).take (s.idx.toNat - 2))) ∧
  (∀ s : State, Reachable s → s.busy = false → s.acc = csum8 (payload s.shadow)) ∧
  State.reset.acc = 0

/-- R115, R118: T = 0x4 and T = 0x7 return 0 in every state, also right after a command, and are no error. -/
def Obligations.CommandAndReservedWordsReadZero : Prop :=
  decodeBus 0x4 0 = .ok .rdCmd ∧ decodeBus 0x7 0 = .ok .rdRsvd7 ∧
  ∀ s : State,
    exec .rdCmd s = .next { s with trace := s.trace ++ [.returned 0x00000000] } ∧
    exec .rdRsvd7 s = .next { s with trace := s.trace ++ [.returned 0x00000000] }

/-- R23: STATUS bits 7:5 and 31:13 and CSUM bits 31:8 read 0 in every state, so no write can change them; the
other bits are the fields of R17's table. -/
def Obligations.ReservedBitsReadZero : Prop :=
  ∀ s : State, ∃ status csum : Word,
    exec .rdStatus s = .next { s with trace := s.trace ++ [.returned status] } ∧
    exec .rdCsum s = .next { s with trace := s.trace ++ [.returned csum] } ∧
    status.extractLsb' 5 3 = 0 ∧ status.extractLsb' 13 19 = 0 ∧ csum.extractLsb' 8 24 = 0 ∧
    status.getLsbD 0 = s.busy ∧ status.getLsbD 1 = s.done ∧ status.getLsbD 2 = s.errBusy ∧
    status.getLsbD 3 = s.errCmd ∧ status.getLsbD 4 = s.errAccess ∧
    status.extractLsb' 8 5 = s.idx ∧ csum.extractLsb' 0 8 = s.acc

/-- R49: a BusRead at any address returns a word and changes no register, and a second read with no event
between returns the same word. -/
def Obligations.ReadsHaveNoSideEffect : Prop :=
  ∀ (wa : BitVec 3) (s : State) (rest : List Moment), s.pending = [.busRead wa] :: [.busRead wa] :: rest →
    ∃ w : Word,
      runSteps 1 s = .next { s with pending := [.busRead wa] :: rest, trace := s.trace ++ [.returned w] } ∧
      runSteps 2 s = .next { s with pending := rest, trace := s.trace ++ [.returned w, .returned w] }

/-! ### Host writes -/

/-- R119 to R122: T = 0x8 to 0xB; every word is stored whole, at any time, and nothing else changes: not the
shadow, so not the frame in progress. The values then standing go into the next START. -/
def Obligations.RecordWritesStoreTheWholeWord : Prop :=
  ∀ (v : Word) (s : State),
    (decodeBus 0x8 v = .ok (.wrTs v) ∧ exec (.wrTs v) s = .next { s with ts := v }) ∧
    (decodeBus 0x9 v = .ok (.wrLat v) ∧ exec (.wrLat v) s = .next { s with lat := v }) ∧
    (decodeBus 0xA v = .ok (.wrLon v) ∧ exec (.wrLon v) s = .next { s with lon := v }) ∧
    (decodeBus 0xB v = .ok (.wrAlt v) ∧ exec (.wrAlt v) s = .next { s with alt := v }) ∧
    (s.busy = false → ∃ t, exec .start s = .next t ∧ t.shadow = ⟨s.ts, s.lat, s.lon, s.alt⟩)

/-- R124 to R126: T = 0xD to 0xF; DATA is ignored, ERR_ACCESS is set, and nothing else changes. -/
def Obligations.ReadOnlyWritesRaiseErrAccess : Prop :=
  ∀ (v : Word) (s : State),
    (decodeBus 0xD v = .ok (.wrStatus v) ∧ exec (.wrStatus v) s = .next { s with errAccess := true }) ∧
    (decodeBus 0xE v = .ok (.wrCsum v) ∧ exec (.wrCsum v) s = .next { s with errAccess := true }) ∧
    (decodeBus 0xF v = .ok (.wrRsvd7 v) ∧ exec (.wrRsvd7 v) s = .next { s with errAccess := true })

/-- R123: T = 0xC; the command DATA names runs in the same event, and no write to CMD raises ERR_ACCESS. -/
def Obligations.CommandWriteRunsTheDecodedCommand : Prop :=
  ∀ (v : Word) (s : State),
    decodeBus 0xC v = .ok (.wrCmd v) ∧
    (v = 0x00000000 → exec (.wrCmd v) s = exec .nop s) ∧
    (v = 0x00000001 → exec (.wrCmd v) s = exec .start s) ∧
    (v = 0x00000002 → exec (.wrCmd v) s = exec .clearStatus s) ∧
    (v ≠ 0x00000000 → v ≠ 0x00000001 → v ≠ 0x00000002 → exec (.wrCmd v) s = exec (.cmdRsvd v) s) ∧
    ∃ t, exec (.wrCmd v) s = .next t ∧ (t.errAccess = true → s.errAccess = true)

/-! ### Commands -/

/-- R127, R129: NOP leaves every register unchanged, BUSY or not; CLEAR_STATUS clears DONE and the three error
bits and nothing else; at the moment of the acceptance of byte 18 DONE ends up 0 or 1. -/
def Obligations.NopAndClearStatus : Prop :=
  decodeCmd 0x00000000 = .nop ∧ decodeCmd 0x00000002 = .clearStatus ∧ Obligations.ClearAgainstTheLastByte ∧
  ∀ s : State,
    exec .nop s = .next s ∧ exec (.wrCmd 0x00000000) s = .next s ∧
    exec .clearStatus s = .next { s with done := false, errBusy := false, errCmd := false, errAccess := false } ∧
    exec (.wrCmd 0x00000002) s = .next { s with done := false, errBusy := false, errCmd := false, errAccess := false }

/-- R128: accepted while BUSY = 0, when it latches the record, clears ACC, IDX and DONE and sets BUSY, and
0x7E is offered; otherwise refused with ERR_BUSY, and nothing else changes. The three error bits are kept when
it is accepted. At the moment of the acceptance of byte 18 it is the one or the other. (The mark
`frameStarted` in the trace is the model's, log 3.) -/
def Obligations.StartLatchesTheRecordOrIsRefused : Prop :=
  decodeCmd 0x00000001 = .start ∧ Obligations.StartAgainstTheLastByte ∧
  ∀ s : State,
    exec (.wrCmd 0x00000001) s = exec .start s ∧
    (s.busy = false → ∃ t, exec .start s = .next t ∧
      t = { s with sts := s.ts, slat := s.lat, slon := s.lon, salt := s.alt, acc := 0x00, idx := 0,
                   done := false, busy := true, trace := s.trace ++ [.frameStarted] } ∧
      t.txValid = true ∧ t.txData = some 0x7E) ∧
    (s.busy = true → exec .start s = .next { s with errBusy := true })

/-- R130: every word but 0, 1 and 2 is reserved (0x00000003 and 0x00000101 among them) and only sets ERR_CMD. -/
def Obligations.ReservedCommandRaisesErrCmd : Prop :=
  ∀ (v : Word) (s : State), v ≠ 0x00000000 → v ≠ 0x00000001 → v ≠ 0x00000002 →
    decodeCmd v = .cmdRsvd v ∧
    exec (.cmdRsvd v) s = .next { s with errCmd := true } ∧
    exec (.wrCmd v) s = .next { s with errCmd := true }

/-! ### The frame sequencer -/

/-- R142, R143: the two header steps, run where R70 and R71 select them (BUSY = 1, IDX = 0 and 1). They emit
0x7E and 0x10 with TX_LAST = 0 and do not touch ACC, which is 0 in a state that meets R29. -/
def Obligations.HeaderStepsEmitDelimiterAndLength : Prop :=
  (decodeSeq 0 = .emitDelim ∧ decodeSeq 1 = .emitLen) ∧
  ∀ s : State, s.busy = true →
    (s.idx = 0 → exec .emitDelim s = .next { s with trace := s.trace ++ [.transferred 0x7E false], idx := 1 }) ∧
    (s.idx = 1 → exec .emitLen s = .next { s with trace := s.trace ++ [.transferred 0x10 false], idx := 2 }) ∧
    (s.Inv → s.idx = 0 ∨ s.idx = 1 → s.acc = 0x00)

/-- R144 to R151: the bytes of STS, then of SLAT, most significant first. ACC is 0 before the first of them in a
state that meets R29. -/
def Obligations.TimestampAndLatitudeStepsEmitAndAccumulate : Prop :=
  payloadStepMeets .emitTsB3 2 (fun s => s.sts.extractLsb 31 24) ∧
  payloadStepMeets .emitTsB2 3 (fun s => s.sts.extractLsb 23 16) ∧
  payloadStepMeets .emitTsB1 4 (fun s => s.sts.extractLsb 15 8) ∧
  payloadStepMeets .emitTsB0 5 (fun s => s.sts.extractLsb 7 0) ∧
  payloadStepMeets .emitLatB3 6 (fun s => s.slat.extractLsb 31 24) ∧
  payloadStepMeets .emitLatB2 7 (fun s => s.slat.extractLsb 23 16) ∧
  payloadStepMeets .emitLatB1 8 (fun s => s.slat.extractLsb 15 8) ∧
  payloadStepMeets .emitLatB0 9 (fun s => s.slat.extractLsb 7 0) ∧
  (∀ s : State, s.Inv → s.busy = true → s.idx = 2 → s.acc = 0x00)

/-- R152 to R159: the bytes of SLON, then of SALT. After the last of them, from a state that meets R29, ACC holds
the frame's checksum and IDX = 18 selects EMIT_CSUM. -/
def Obligations.LongitudeAndAltitudeStepsEmitAndAccumulate : Prop :=
  payloadStepMeets .emitLonB3 10 (fun s => s.slon.extractLsb 31 24) ∧
  payloadStepMeets .emitLonB2 11 (fun s => s.slon.extractLsb 23 16) ∧
  payloadStepMeets .emitLonB1 12 (fun s => s.slon.extractLsb 15 8) ∧
  payloadStepMeets .emitLonB0 13 (fun s => s.slon.extractLsb 7 0) ∧
  payloadStepMeets .emitAltB3 14 (fun s => s.salt.extractLsb 31 24) ∧
  payloadStepMeets .emitAltB2 15 (fun s => s.salt.extractLsb 23 16) ∧
  payloadStepMeets .emitAltB1 16 (fun s => s.salt.extractLsb 15 8) ∧
  payloadStepMeets .emitAltB0 17 (fun s => s.salt.extractLsb 7 0) ∧
  (∀ s : State, s.Inv → s.busy = true → s.idx = 17 → ∃ t, exec .emitAltB0 s = .next t ∧
    t.acc = csum8 (payload s.shadow) ∧ t.idx = 18 ∧ decodeSeq t.idx = .emitCsum)

/-- R160: the checksum goes out with TX_LAST = 1 and is not added to ACC; BUSY falls, DONE rises, IDX is 0,
TX_VALID is 0 and TX_DATA 0x00. CSUM then reads the frame's checksum, and the sink has no step, until the next
accepted START or reset. -/
def Obligations.ChecksumStepEndsTheFrame : Prop :=
  decodeSeq 18 = .emitCsum ∧
  (∀ (s s' t : State) (e : Event), s.busy = false → fetch s = some (e, s') → step s = .next t →
    e ≠ .busWrite 4 0x00000001 → e ≠ .reset → t.acc = s.acc ∧ t.busy = false ∧ t.sent = s.sent) ∧
  ∀ s : State, s.busy = true → s.idx = 18 → (s.Inv → s.acc = csum8 (payload s.shadow)) ∧
    ∃ t, exec .emitCsum s = .next t ∧
    t = { s with trace := s.trace ++ [.transferred s.acc true], busy := false, done := true, idx := 0 } ∧
    t.txValid = false ∧ t.txData = some 0x00

/-- R161: IDX = 19 to 31 select SEQ_INVALID, which faults in every state and never emits a byte, and no
reachable state has such an IDX. -/
def Obligations.InvalidIndexFaultsAndIsUnreachable : Prop :=
  (∀ i : BitVec 5, 19 ≤ i.toNat → ∀ s : State, exec (decodeSeq i) s = .fault .seqInvalid) ∧
  (∀ s : State, exec .seqInvalid19 s = .fault .seqInvalid) ∧
  (∀ (lo : BitVec 2) (s : State), exec (.seqInvalid20 lo) s = .fault .seqInvalid) ∧
  (∀ (lo : BitVec 3) (s : State), exec (.seqInvalid24 lo) s = .fault .seqInvalid) ∧
  (∀ s : State, Reachable s → s.idx.toNat ≤ 18)

/-- R141: a SinkAccept at IDX 0 to 18 transfers `frame_byte(IDX)`, adds it to ACC if it is a payload byte,
and moves IDX on, or ends the frame at 18. No other register changes. At IDX 19 to 31 it faults. -/
def Obligations.SinkAcceptTransfersTheOfferedByte : Prop :=
  (∀ (s : State) (rest : List Moment), s.busy = true → 19 ≤ s.idx.toNat → s.pending = [.sinkReady] :: rest →
    step s = .fault .seqInvalid) ∧
  ∀ (s : State) (rest : List Moment), s.busy = true → s.idx.toNat ≤ 18 → s.pending = [.sinkReady] :: rest →
    ∃ b : Byte,
      frameByte s.shadow s.acc s.idx.toNat = some b ∧ s.txData = some b ∧
      (s.idx.toNat ≤ 1 → step s = .next { s with
        pending := rest, trace := s.trace ++ [.transferred b false], idx := s.idx + 1 }) ∧
      (2 ≤ s.idx.toNat → s.idx.toNat ≤ 17 → step s = .next { s with
        pending := rest, trace := s.trace ++ [.transferred b false], acc := s.acc + b, idx := s.idx + 1 }) ∧
      (s.idx = 18 → step s = .next { s with
        pending := rest, trace := s.trace ++ [.transferred b true], busy := false, done := true, idx := 0 })

/-- R140: no byte is transferred by a step from a state with BUSY = 0, whatever the event; a sink that is ready
there changes nothing. -/
def Obligations.NoByteLeavesWhileIdle : Prop :=
  (∀ s t : State, s.busy = false → step s = .next t → t.sent = s.sent) ∧
  (∀ (s : State) (rest : List Moment), s.busy = false → s.pending = [.sinkReady] :: rest →
    step s = .next { s with pending := rest })

/-- The model's choice, log 4, after R140 and R214: an EMIT step asked of a state with BUSY = 0 is refused by name. -/
def Obligations.EmitStepsAreRefusedWhileIdle : Prop :=
  ∀ (i : BitVec 5) (s : State), i.toNat ≤ 18 → s.busy = false →
    exec (decodeSeq i) s = .refused .noSinkAcceptWhileIdle

/-- R166: once a run is finished (BUSY = 0, no host transaction left) no number of steps sends another byte, and it
stays finished. -/
def Obligations.FinishedRunsSendNothing : Prop :=
  ∀ (k : Nat) (s : State), s.finished = true →
    ∃ t, runSteps k s = .next t ∧ t.sent = s.sent ∧ t.finished = true

/-! ### Which events write which state -/

/-- R18, R19: BUSY is set only by a START accepted while BUSY = 0 and cleared only by the acceptance of byte 18
and by reset; DONE is set only by the acceptance of byte 18 and cleared by an accepted START, CLEAR_STATUS and
reset; so in a reachable state DONE = 1 means no frame is in progress; while BUSY = 1 a byte is offered. -/
def Obligations.BusyAndDoneChangeOnlyAsStated : Prop :=
  (∀ (s s' t : State) (e : Event), fetch s = some (e, s') → step s = .next t →
    (s.busy = false → t.busy = true → e = .busWrite 4 0x00000001) ∧
    (s.busy = true → t.busy = false → (e = .sinkReady ∧ s.idx = 18) ∨ e = .reset) ∧
    (s.done = false → t.done = true → e = .sinkReady ∧ s.busy = true ∧ s.idx = 18) ∧
    (s.done = true → t.done = false →
      (e = .busWrite 4 0x00000001 ∧ s.busy = false) ∨ e = .busWrite 4 0x00000002 ∨ e = .reset) ∧
    (e = .busWrite 4 0x00000001 → s.busy = false → t.busy = true ∧ t.done = false) ∧
    (e = .sinkReady → s.busy = true → s.idx = 18 → t.busy = false ∧ t.done = true) ∧
    (e = .busWrite 4 0x00000002 → t.done = false) ∧
    (e = .reset → t.busy = false ∧ t.done = false)) ∧
  (∀ s : State, Reachable s → s.done = true → s.busy = false) ∧
  (∀ s : State, Reachable s → s.busy = true → s.txValid = true ∧ ∃ b, s.txData = some b)

/-- R20, R21, R22: each error bit is set exactly by its cause and cleared only by CLEAR_STATUS and reset. -/
def Obligations.ErrorBitsChangeOnlyAsStated : Prop :=
  ∀ (s s' t : State) (e : Event), fetch s = some (e, s') → step s = .next t →
    ((e = .busWrite 4 0x00000001 ∧ s.busy = true) → t.errBusy = true) ∧
    (s.errBusy = false → t.errBusy = true → e = .busWrite 4 0x00000001 ∧ s.busy = true) ∧
    (∀ v : Word, e = .busWrite 4 v → v ≠ 0 → v ≠ 1 → v ≠ 2 → t.errCmd = true) ∧
    (s.errCmd = false → t.errCmd = true → ∃ v : Word, e = .busWrite 4 v ∧ v ≠ 0 ∧ v ≠ 1 ∧ v ≠ 2) ∧
    (∀ (wa : BitVec 3) (v : Word), e = .busWrite wa v → wa = 5 ∨ wa = 6 ∨ wa = 7 → t.errAccess = true) ∧
    (s.errAccess = false → t.errAccess = true →
      ∃ (wa : BitVec 3) (v : Word), e = .busWrite wa v ∧ (wa = 5 ∨ wa = 6 ∨ wa = 7)) ∧
    ((s.errBusy = true ∧ t.errBusy = false ∨ s.errCmd = true ∧ t.errCmd = false ∨
        s.errAccess = true ∧ t.errAccess = false) →
      e = .busWrite 4 0x00000002 ∨ e = .reset) ∧
    (e = .busWrite 4 0x00000002 ∨ e = .reset →
      t.errBusy = false ∧ t.errCmd = false ∧ t.errAccess = false)

/-- R162: ACC is set to 0 by an accepted START and by reset, has exactly the emitted byte added modulo 256 by a
payload step, and changes in no other event; after the 16 payload steps it is csum8 of the payload. -/
def Obligations.AccumulatorChangesAtThreePoints : Prop :=
  (∀ (s s' t : State) (e : Event), fetch s = some (e, s') → step s = .next t →
    (e = .busWrite 4 0x00000001 → s.busy = false → t.acc = 0x00) ∧
    (e = .reset → t.acc = 0x00) ∧
    (e = .sinkReady → s.busy = true → 2 ≤ s.idx.toNat → s.idx.toNat ≤ 17 →
      ∃ b, t.sent = s.sent ++ [b] ∧ t.acc.toNat = (s.acc.toNat + b.toNat) % 256) ∧
    (t.acc ≠ s.acc → (e = .busWrite 4 0x00000001 ∧ s.busy = false) ∨ e = .reset ∨
      (e = .sinkReady ∧ s.busy = true ∧ 2 ≤ s.idx.toNat ∧ s.idx.toNat ≤ 17))) ∧
  (∀ s : State, Reachable s → s.busy = true → s.idx = 18 → s.acc = csum8 (payload s.shadow))

/-- R24: START enters at IDX = 0; an acceptance adds 1 below 18 and returns to 0 at 18; no other event but reset
writes IDX; in a reachable state IDX never passes 18, is 0 while BUSY = 0, and while BUSY = 1 is the offset of
the byte offered; IDX reads as STATUS[12:8]. -/
def Obligations.IndexCountsAcceptances : Prop :=
  (∀ (s s' t : State) (e : Event), fetch s = some (e, s') → step s = .next t →
    (e = .busWrite 4 0x00000001 → s.busy = false → t.idx = 0) ∧
    (e = .sinkReady → s.busy = true → s.idx.toNat < 18 → t.idx.toNat = s.idx.toNat + 1 ∧ t.busy = true) ∧
    (e = .sinkReady → s.busy = true → s.idx = 18 → t.idx = 0 ∧ t.busy = false) ∧
    (t.idx ≠ s.idx →
      (e = .busWrite 4 0x00000001 ∧ s.busy = false) ∨ (e = .sinkReady ∧ s.busy = true) ∨ e = .reset)) ∧
  (∀ s : State, Reachable s → s.idx.toNat ≤ 18 ∧ (s.busy = false → s.idx = 0) ∧
    (s.busy = true → s.txData = (frame s.shadow)[s.idx.toNat]?)) ∧
  (∀ s : State, (statusWord s).extractLsb' 8 5 = s.idx)

/-- 10_state.md R26, R200: the shadow is written only by an accepted START, with the record registers as they
stand, and by reset. -/
def Obligations.ShadowIsWrittenOnlyByStartAndReset : Prop :=
  ∀ (s s' t : State) (e : Event), fetch s = some (e, s') → step s = .next t →
    (e = .busWrite 4 0x00000001 → s.busy = false → t.shadow = s.record) ∧
    (e = .reset → t.shadow = ⟨0, 0, 0, 0⟩) ∧
    (¬ (e = .busWrite 4 0x00000001 ∧ s.busy = false) → e ≠ .reset → t.shadow = s.shadow)

/-- R15 and R11 to R14: a record register is written only by its own write, and by reset; a write to one never
changes another. -/
def Obligations.RecordRegistersAreWrittenOnlyByTheirWrite : Prop :=
  ∀ (s s' t : State) (e : Event), fetch s = some (e, s') → step s = .next t →
    ((∃ v, e = .busWrite 0 v ∧ t.ts = v) ∨ (e = .reset ∧ t.ts = 0) ∨ t.ts = s.ts) ∧
    ((∃ v, e = .busWrite 1 v ∧ t.lat = v) ∨ (e = .reset ∧ t.lat = 0) ∨ t.lat = s.lat) ∧
    ((∃ v, e = .busWrite 2 v ∧ t.lon = v) ∨ (e = .reset ∧ t.lon = 0) ∨ t.lon = s.lon) ∧
    ((∃ v, e = .busWrite 3 v ∧ t.alt = v) ∨ (e = .reset ∧ t.alt = 0) ∨ t.alt = s.alt) ∧
    (∀ v, e = .busWrite 0 v → t.lat = s.lat ∧ t.lon = s.lon ∧ t.alt = s.alt) ∧
    (∀ v, e = .busWrite 1 v → t.ts = s.ts ∧ t.lon = s.lon ∧ t.alt = s.alt) ∧
    (∀ v, e = .busWrite 2 v → t.ts = s.ts ∧ t.lat = s.lat ∧ t.alt = s.alt) ∧
    (∀ v, e = .busWrite 3 v → t.ts = s.ts ∧ t.lat = s.lat ∧ t.lon = s.lon)

/-! ### Errors -/

/-- R183: a transaction that raises an error (the list of R181, `raisesError`) completes, sets the bit R181 names for
it, and changes nothing else, the other two error bits included: ERR_BUSY for a START, ERR_CMD for any other
command word of the list, ERR_ACCESS for a write to word address 5, 6 or 7. -/
def Obligations.ErrorsHaveNoOtherEffect : Prop :=
  ∀ (s : State) (wa : BitVec 3) (v : Word), raisesError s.busy wa v = true →
    (wa = 4 → v = 0x00000001 → exec (decodeWrite wa v) s = .next { s with errBusy := true }) ∧
    (wa = 4 → v ≠ 0x00000001 → exec (decodeWrite wa v) s = .next { s with errCmd := true }) ∧
    (wa = 5 ∨ wa = 6 ∨ wa = 7 → exec (decodeWrite wa v) s = .next { s with errAccess := true }) ∧
    (wa = 4 ∨ wa = 5 ∨ wa = 6 ∨ wa = 7)

/-- 60_exceptions.md R186: the order in which error-raising transactions are serialized does not change the
state reached. -/
def Obligations.ErrorOrderDoesNotMatter : Prop :=
  ∀ (s : State) (wa wb : BitVec 3) (v w : Word) (rest : List Moment),
    raisesError s.busy wa v = true → raisesError s.busy wb w = true →
    runSteps 2 { s with pending := [.busWrite wa v] :: [.busWrite wb w] :: rest } =
      runSteps 2 { s with pending := [.busWrite wb w] :: [.busWrite wa v] :: rest }

/-! ### The frame function -/

/-- R96, R97, R98: delimiter, length, payload, checksum; 19 bytes, for every record. -/
def Obligations.FrameHasTheFixedShape : Prop :=
  ∀ r : Record, (frame r).length = 19 ∧ (payload r).length = 16 ∧
    (frame r)[0]? = some 0x7E ∧ (frame r)[1]? = some 0x10 ∧
    (0x10 : Byte).toNat = (payload r).length ∧
    ((frame r).drop 2).take 16 = payload r ∧ (frame r)[18]? = some (csum8 (payload r)) ∧
    frame r = [0x7E, 0x10] ++ payload r ++ [csum8 (payload r)] ∧
    frame ⟨0, 0, 0, 0⟩ = [0x7E, 0x10, 0, 0, 0, 0, 0, 0, 0, 0, 0, 0, 0, 0, 0, 0, 0, 0, 0]

/-- R94: the payload is the four serializations in order, 16 bytes; byte 4f + k is bits `31-8k : 24-8k` of
field f. -/
def Obligations.PayloadIsBigEndianByField : Prop :=
  (∀ r : Record, payload r = be32 r.ts ++ be32 r.lat ++ be32 r.lon ++ be32 r.alt ∧ (payload r).length = 16) ∧
  ∀ (r : Record) (f k : Nat), f < 4 → k < 4 → ∃ x : Word, [r.ts, r.lat, r.lon, r.alt][f]? = some x ∧
    (payload r)[4 * f + k]? = some (BitVec.ofNat 8 (x.toNat / 2 ^ (24 - 8 * k)))

/-- R95: the wrap-around accumulator is the exact sum modulo 256, for any byte sequence. -/
def Obligations.ChecksumIsTheSumModulo256 : Prop :=
  ∀ p : List Byte, (csum8 p).toNat = (p.map BitVec.toNat).sum % 256

/-- R104: the checksum covers the payload only; a change of one payload byte by d changes it by d; swapping two
payload bytes leaves it unchanged. -/
def Obligations.ChecksumWeighsEveryPayloadByteAlike : Prop :=
  (∀ r : Record, (frame r)[18]? = some (csum8 (((frame r).drop 2).take 16))) ∧
  (∀ (a b : List Byte) (x d : Byte), csum8 (a ++ [x + d] ++ b) = csum8 (a ++ [x] ++ b) + d) ∧
  (∀ (a b c : List Byte) (x y : Byte), csum8 (a ++ [x] ++ b ++ [y] ++ c) = csum8 (a ++ [y] ++ b ++ [x] ++ c)) ∧
  (∀ (a b c : List Byte) (x y d : Byte),
    csum8 (a ++ [x + d] ++ b ++ [y - d] ++ c) = csum8 (a ++ [x] ++ b ++ [y] ++ c))

/-- R103: reading the bytes at offsets 2, 6, 10 and 14 back big-endian gives the record bit for bit, so two
different records never give the same frame. -/
def Obligations.FrameRoundTrip : Prop :=
  (∀ r : Record, ∃ t3 t2 t1 t0 a3 a2 a1 a0 o3 o2 o1 o0 h3 h2 h1 h0 : Byte,
    (frame r).drop 2 = [t3, t2, t1, t0, a3, a2, a1, a0, o3, o2, o1, o0, h3, h2, h1, h0, csum8 (payload r)] ∧
    unbe32 t3 t2 t1 t0 = r.ts ∧ unbe32 a3 a2 a1 a0 = r.lat ∧
    unbe32 o3 o2 o1 o0 = r.lon ∧ unbe32 h3 h2 h1 h0 = r.alt) ∧
  (∀ r r' : Record, frame r = frame r' → r = r')

/-- R91: most significant byte first; `be32` is a bijection from 32-bit values to 4-byte sequences. -/
def Obligations.SerializerIsABijection : Prop :=
  (∀ x : Word, be32 x = [x.extractLsb 31 24, x.extractLsb 23 16, x.extractLsb 15 8, x.extractLsb 7 0]) ∧
  (∀ x y : Word, be32 x = be32 y → x = y) ∧
  (∀ b0 b1 b2 b3 : Byte, be32 (unbe32 b0 b1 b2 b3) = [b0, b1, b2, b3])

/-- R72, R103 (the frame decoder is the model's reading of the frame format, log 18): it accepts exactly the
frames, and gives back the record each is the frame of. -/
def Obligations.FrameDecoderAcceptsExactlyTheFrames : Prop :=
  ∀ (bs : List Byte) (r : Record), decodeFrame bs = .ok r ↔ bs = frame r

/-! ### Invariants and reachable states -/

/-- R29 holds after reset, whatever the agents then do. -/
def Obligations.ResetMeetsTheInvariant : Prop :=
  State.reset.Inv ∧
  ∀ (moments : List Moment) (c : Nat), State.Inv { State.reset with pending := moments, choices := c }

/-- R29 is kept by every step, from every state that meets it. -/
def Obligations.EveryStepKeepsTheInvariant : Prop :=
  ∀ s t : State, s.Inv → step s = .next t → t.Inv

/-- R29: "Every reachable state satisfies" its five items. -/
def Obligations.ReachableStatesMeetTheInvariant : Prop :=
  ∀ s : State, Reachable s → s.Inv

/-- R29, R161, R188: no step from a state that meets R29 faults or is refused, whatever the event. -/
def Obligations.NoReachableStepStops : Prop :=
  (∀ s : State, s.Inv → ∃ t, step s = .next t) ∧ (∀ s : State, Reachable s → ∃ t, step s = .next t)

/-! ### Laws of the sequencer -/

/-- R163: from an accepted START, with any host events and no reset until 19 bytes are accepted, in any order
within a moment, the sink receives exactly the frame of the record latched; then BUSY = 0, DONE = 1 and ACC is
the checksum. -/
def Obligations.FrameLaw : Prop :=
  ∀ (s : State) (moments rest : List Moment), s.busy = false → noReset moments → acceptances moments = 18 →
    s.pending = [.busWrite 4 0x00000001] :: (moments ++ [.sinkReady] :: rest) →
    ∃ t, runSteps (moments.flatten.length + 2) s = .next t ∧
      t.sent = s.sent ++ frame s.record ∧ t.busy = false ∧ t.done = true ∧
      some t.acc = (frame s.record)[18]? ∧ t.pending = rest

/-- R60, R101: from any point of a frame, n more acceptances send the next n bytes of the shadow's frame in
offset order, none skipped, repeated or reordered, whatever the host does meanwhile. -/
def Obligations.BytesGoOutInFrameOrder : Prop :=
  ∀ (s : State) (moments rest : List Moment), s.Inv → s.busy = true → noReset moments →
    s.idx.toNat + acceptances moments ≤ 18 → s.pending = moments ++ rest →
    ∃ t, runSteps moments.flatten.length s = .next t ∧
      t.sent = s.sent ++ ((frame s.shadow).drop s.idx.toNat).take (acceptances moments) ∧
      t.idx.toNat = s.idx.toNat + acceptances moments ∧ t.busy = true ∧ t.shadow = s.shadow

/-- R165, R27: while the sink accepts nothing and no reset comes, a frame in progress stays as it is: BUSY, IDX,
ACC, TX_DATA and TX_LAST are constant and no byte is sent, whatever the host does. -/
def Obligations.StalledFrameKeepsItsOffer : Prop :=
  ∀ (s : State) (moments rest : List Moment), s.busy = true → noReset moments → acceptances moments = 0 →
    s.pending = moments ++ rest →
    ∃ t, runSteps moments.flatten.length s = .next t ∧ t.busy = true ∧ t.idx = s.idx ∧ t.acc = s.acc ∧
      t.txData = s.txData ∧ t.txLast = s.txLast ∧ t.txValid = true ∧ t.sent = s.sent

/-- R101: two frames in progress with the same shadow and the same IDX send the same bytes for the same number
of acceptances, whatever the other registers hold, whatever was sent before, whatever each host does and
however the acceptances are timed. -/
def Obligations.FrameBytesDependOnlyOnTheShadow : Prop :=
  ∀ (s₁ s₂ : State) (m₁ m₂ rest₁ rest₂ : List Moment), s₁.Inv → s₂.Inv → s₁.busy = true → s₂.busy = true →
    s₁.shadow = s₂.shadow → s₁.idx = s₂.idx → noReset m₁ → noReset m₂ →
    acceptances m₁ = acceptances m₂ → s₁.idx.toNat + acceptances m₁ ≤ 18 →
    s₁.pending = m₁ ++ rest₁ → s₂.pending = m₂ ++ rest₂ →
    ∃ (t₁ t₂ : State) (bytes : List Byte),
      runSteps m₁.flatten.length s₁ = .next t₁ ∧ runSteps m₂.flatten.length s₂ = .next t₂ ∧
      t₁.sent = s₁.sent ++ bytes ∧ t₂.sent = s₂.sent ++ bytes ∧ t₁.txData = t₂.txData

/-- R60, R201: every step from a state that meets R29 keeps this: the bytes sent since each accepted START are a
prefix of one record's frame; the newest group, while BUSY = 1, is the first IDX bytes of the shadow's frame; the
groups joined are all the bytes sent. So it holds of every reachable state. (The mark that opens a group is the
model's, log 3.) -/
def Obligations.EveryGroupSentIsAFramePrefix : Prop :=
  (∀ s t : State, s.Inv → s.SentByFrames → step s = .next t → t.SentByFrames) ∧
  (∀ s : State, Reachable s → s.SentByFrames)

/-! ### Events, order and reset -/

/-- The step runs the instruction the next event's code decodes to (BUS, R67), the SEQ decode of IDX on an
acceptance while BUSY = 1 (R70), the Reset event (R200), on the state with that event taken off the list. -/
def Obligations.StepRunsTheDecodedInstruction : Prop :=
  ∀ (s : State) (rest : List Moment),
    (∀ (t : BitVec 4) (v : Word) (i : Instr), decode (.bus t v) = .ok i → s.pending = [busEvent t v] :: rest →
      step s = exec i { s with pending := rest }) ∧
    (∀ i : Instr, decode (.seq s.idx) = .ok i → s.busy = true → s.pending = [.sinkReady] :: rest →
      step s = exec i { s with pending := rest }) ∧
    (s.pending = [.reset] :: rest → step s = .next (resetEvent { s with pending := rest }))

/-- A table word placed by `withFetchWord` is run by the very next step: a BUS code or a command on the state
as it was, a SEQ code on the state with BUSY = 1 and its IDX (log 10). -/
def Obligations.FetchWordRunsNext : Prop :=
  ∀ (s : State) (nbits w : Nat) (i : Instr), decodeTableWord nbits w = some i →
    step (s.withFetchWord nbits w) = exec i s ∨
    ∃ idx : BitVec 5, codeOfTableWord nbits w = .ok (.seq idx) ∧
      step (s.withFetchWord nbits w) = exec i { s with busy := true, idx := idx }

/-- 00_scope.md R9, 20_memory.md R52: with no event pending, nothing changes. -/
def Obligations.NoEventNoChange : Prop :=
  ∀ s : State, (∀ m ∈ s.pending, m = []) → step s = .next s

/-- R54: of several events at one moment, the step is that of one of them alone with the others left for later,
so every simultaneous moment takes effect in some serial order. -/
def Obligations.SimultaneousEventsTakeASerialOrder : Prop :=
  ∀ (s : State) (m : Moment) (rest : List Moment), 2 ≤ m.length → s.pending = m :: rest →
    ∃ (before after : List Event) (e : Event), m = before ++ [e] ++ after ∧
      step s = step { s with pending := [e] :: (before ++ after) :: rest, choices := s.choices + 1 }

/-- R200: from any state, Reset sets every register to its reset value, and the port is idle after it. No other
event writes a record register but its own write, or ends a frame but the acceptance of byte 18. The
pending events, the count of choices and the bytes already sent are no registers and stay (log 1 to 3). -/
def Obligations.ResetClearsEveryRegister : Prop :=
  (∀ (s s' t : State) (e : Event), fetch s = some (e, s') → step s = .next t → e ≠ .reset →
    (t.record ≠ s.record → ∃ (wa : BitVec 3) (v : Word), wa.toNat ≤ 3 ∧ e = .busWrite wa v) ∧
    (s.busy = true → t.busy = false → e = .sinkReady ∧ s.idx = 18)) ∧
  ∀ (s : State) (rest : List Moment), s.pending = [.reset] :: rest → ∃ t, step s = .next t ∧
    (t.ts = 0 ∧ t.lat = 0 ∧ t.lon = 0 ∧ t.alt = 0 ∧ t.sts = 0 ∧ t.slat = 0 ∧ t.slon = 0 ∧ t.salt = 0) ∧
    (t.busy = false ∧ t.done = false ∧ t.errBusy = false ∧ t.errCmd = false ∧ t.errAccess = false) ∧
    (t.idx = 0 ∧ t.acc = 0) ∧
    (t.txValid = false ∧ t.txLast = false ∧ t.txData = some 0x00) ∧
    (t.pending = rest ∧ t.choices = s.choices ∧ t.trace = s.trace)

/-- R30: the reset values, and that a START right after reset, with any host events and no reset until 19 bytes are
accepted, sends the all-zero record's frame. -/
def Obligations.ResetStateSendsTheZeroFrame : Prop :=
  (State.reset.record = ⟨0, 0, 0, 0⟩ ∧ State.reset.shadow = ⟨0, 0, 0, 0⟩) ∧
  (State.reset.busy = false ∧ State.reset.done = false ∧ State.reset.errBusy = false ∧
    State.reset.errCmd = false ∧ State.reset.errAccess = false ∧ State.reset.idx = 0 ∧ State.reset.acc = 0) ∧
  (State.reset.txValid = false ∧ State.reset.txLast = false ∧ State.reset.txData = some 0x00) ∧
  ∀ moments rest : List Moment, noReset moments → acceptances moments = 18 →
    ∃ t, runSteps (moments.flatten.length + 2)
        { State.reset with pending := [.busWrite 4 0x00000001] :: (moments ++ [.sinkReady] :: rest) } = .next t ∧
      t.sent = State.reset.sent ++ [0x7E, 0x10, 0, 0, 0, 0, 0, 0, 0, 0, 0, 0, 0, 0, 0, 0, 0, 0, 0]

/-! ### Encodings -/

/-- R67: the BUS decode table. -/
def Obligations.BusCodesDecodeByTheTable : Prop :=
  ∀ v : Word,
    decodeBus 0b0000 0 = .ok .rdTs ∧ decodeBus 0b0001 0 = .ok .rdLat ∧ decodeBus 0b0010 0 = .ok .rdLon ∧
    decodeBus 0b0011 0 = .ok .rdAlt ∧ decodeBus 0b0100 0 = .ok .rdCmd ∧ decodeBus 0b0101 0 = .ok .rdStatus ∧
    decodeBus 0b0110 0 = .ok .rdCsum ∧ decodeBus 0b0111 0 = .ok .rdRsvd7 ∧
    decodeBus 0b1000 v = .ok (.wrTs v) ∧ decodeBus 0b1001 v = .ok (.wrLat v) ∧
    decodeBus 0b1010 v = .ok (.wrLon v) ∧ decodeBus 0b1011 v = .ok (.wrAlt v) ∧
    decodeBus 0b1100 v = .ok (.wrCmd v) ∧ decodeBus 0b1101 v = .ok (.wrStatus v) ∧
    decodeBus 0b1110 v = .ok (.wrCsum v) ∧ decodeBus 0b1111 v = .ok (.wrRsvd7 v)

/-- For every well-formed instruction, decoding its encoding gives it back, as a code and as a table word, with
every operand at every value. -/
def Obligations.DecodeOfEncode : Prop :=
  ∀ i : Instr, i.wf = true →
    decode (encode i) = .ok i ∧
    decodeTableWord (encode i).toTableWord.1 (encode i).toTableWord.2 = some i

/-- Decoding loses nothing: what a code decodes to is well-formed and encodes to that code again (for a command
word, R68: no ignored bit). For a read code it holds because the decoder rejects a read whose DATA is not 0, the
model's reading of R66 (DEDUCED, log 14). -/
def Obligations.EncodeOfDecode : Prop :=
  ∀ (c : Code) (i : Instr), decode c = .ok i → i.wf = true ∧ encode i = c

/-- R76, R77, R78: script lines assemble to the transactions and events the tables give, with TS, LAT, LON, ALT, CMD,
STATUS, CSUM and RSVD7 at word addresses 0 to 7; a pseudo-instruction to its expansion; a script in the order of
its lines. How many reads a polling loop makes is the script's to say, the model's choice (log 16). -/
def Obligations.ScriptLinesAssembleByTheTable : Prop :=
  (assemble [.rd .ts] = [[busEvent 0x0 0]] ∧ assemble [.rd .lat] = [[busEvent 0x1 0]] ∧
    assemble [.rd .lon] = [[busEvent 0x2 0]] ∧ assemble [.rd .alt] = [[busEvent 0x3 0]] ∧
    assemble [.rd .cmd] = [[busEvent 0x4 0]] ∧ assemble [.rd .status] = [[busEvent 0x5 0]] ∧
    assemble [.rd .csum] = [[busEvent 0x6 0]] ∧ assemble [.rd .rsvd7] = [[busEvent 0x7 0]]) ∧
  (∀ v : Word,
    assemble [.wr .ts v] = [[busEvent 0x8 v]] ∧ assemble [.wr .lat v] = [[busEvent 0x9 v]] ∧
    assemble [.wr .lon v] = [[busEvent 0xA v]] ∧ assemble [.wr .alt v] = [[busEvent 0xB v]] ∧
    assemble [.wr .cmd v] = [[busEvent 0xC v]] ∧ assemble [.wr .status v] = [[busEvent 0xD v]] ∧
    assemble [.wr .csum v] = [[busEvent 0xE v]] ∧ assemble [.wr .rsvd7 v] = [[busEvent 0xF v]] ∧
    assemble [.cmd v] = [[busEvent 0xC v]]) ∧
  (assemble [.cmdNop] = [[busEvent 0xC 0x00000000]] ∧ assemble [.cmdStart] = [[busEvent 0xC 0x00000001]] ∧
    assemble [.cmdClearStatus] = [[busEvent 0xC 0x00000002]]) ∧
  (∀ a b c d : Word, assemble [.send a b c d] =
    assemble [.wr .ts a, .wr .lat b, .wr .lon c, .wr .alt d, .cmdStart]) ∧
  assemble [.clear] = assemble [.cmdClearStatus] ∧
  (∀ n : Nat, assemble [.pollIdle n] = List.replicate n [busEvent 0x5 0] ∧
    assemble [.pollDone n] = List.replicate n [busEvent 0x5 0] ∧
    assemble [.accept n] = List.replicate n [.sinkReady]) ∧
  assemble [.reset] = [[.reset]] ∧
  (∀ w : Word, (pollIdleExits w = true ↔ w.getLsbD 0 = false) ∧ (pollDoneExits w = true ↔ w.getLsbD 1 = true)) ∧
  (∀ first second : List ScriptLine, assemble (first ++ second) = assemble first ++ assemble second)

/-! ### Several instances -/

/-- 60_exceptions.md R193: an event at one instance is a step of that instance and leaves every other instance
unchanged; each instance of a platform is one TPE in a reachable state. (The count of free choices that the
platform keeps is the model's own, log 17: the step reads the free value of R54 at that count.) -/
def Obligations.InstancesShareNoState : Prop :=
  (∀ (p q : Platform) (k : Nat), Platform.step k p = .next q →
    (∀ j, j ≠ k → q.instances[j]? = p.instances[j]?) ∧ q.instances.length = p.instances.length ∧
    (∀ s, p.instances[k]? = some s → ∃ t, q.instances[k]? = some t ∧
      step { s with choices := p.choices } = .next t ∧ q.choices = t.choices) ∧
    ((∀ s ∈ p.instances, Reachable s) → ∀ s ∈ q.instances, Reachable s)) ∧
  (∀ n : Nat, ∀ s ∈ (Platform.reset n).instances, Reachable s)
end

