-- ==== Sys2Proof/Laws/State.lean ====
section
/-! SUPPORT. One lemma per field per update, so that no later proof unfolds a record update. -/

namespace Sys2Proof.Machine

-- observe
@[simp] theorem observe_ts (o : Obs) (s : State) : (observe o s).ts = s.ts := rfl
@[simp] theorem observe_lat (o : Obs) (s : State) : (observe o s).lat = s.lat := rfl
@[simp] theorem observe_lon (o : Obs) (s : State) : (observe o s).lon = s.lon := rfl
@[simp] theorem observe_alt (o : Obs) (s : State) : (observe o s).alt = s.alt := rfl
@[simp] theorem observe_sts (o : Obs) (s : State) : (observe o s).sts = s.sts := rfl
@[simp] theorem observe_slat (o : Obs) (s : State) : (observe o s).slat = s.slat := rfl
@[simp] theorem observe_slon (o : Obs) (s : State) : (observe o s).slon = s.slon := rfl
@[simp] theorem observe_salt (o : Obs) (s : State) : (observe o s).salt = s.salt := rfl
@[simp] theorem observe_busy (o : Obs) (s : State) : (observe o s).busy = s.busy := rfl
@[simp] theorem observe_done (o : Obs) (s : State) : (observe o s).done = s.done := rfl
@[simp] theorem observe_errBusy (o : Obs) (s : State) : (observe o s).errBusy = s.errBusy := rfl
@[simp] theorem observe_errCmd (o : Obs) (s : State) : (observe o s).errCmd = s.errCmd := rfl
@[simp] theorem observe_errAccess (o : Obs) (s : State) : (observe o s).errAccess = s.errAccess := rfl
@[simp] theorem observe_idx (o : Obs) (s : State) : (observe o s).idx = s.idx := rfl
@[simp] theorem observe_acc (o : Obs) (s : State) : (observe o s).acc = s.acc := rfl
@[simp] theorem observe_pending (o : Obs) (s : State) : (observe o s).pending = s.pending := rfl
@[simp] theorem observe_choices (o : Obs) (s : State) : (observe o s).choices = s.choices := rfl
@[simp] theorem observe_trace (o : Obs) (s : State) : (observe o s).trace = s.trace ++ [o] := rfl

-- raise
@[simp] theorem raise_ts (e : ErrorBit) (s : State) : (raise e s).ts = s.ts := by cases e <;> rfl
@[simp] theorem raise_lat (e : ErrorBit) (s : State) : (raise e s).lat = s.lat := by cases e <;> rfl
@[simp] theorem raise_lon (e : ErrorBit) (s : State) : (raise e s).lon = s.lon := by cases e <;> rfl
@[simp] theorem raise_alt (e : ErrorBit) (s : State) : (raise e s).alt = s.alt := by cases e <;> rfl
@[simp] theorem raise_sts (e : ErrorBit) (s : State) : (raise e s).sts = s.sts := by cases e <;> rfl
@[simp] theorem raise_slat (e : ErrorBit) (s : State) : (raise e s).slat = s.slat := by cases e <;> rfl
@[simp] theorem raise_slon (e : ErrorBit) (s : State) : (raise e s).slon = s.slon := by cases e <;> rfl
@[simp] theorem raise_salt (e : ErrorBit) (s : State) : (raise e s).salt = s.salt := by cases e <;> rfl
@[simp] theorem raise_busy (e : ErrorBit) (s : State) : (raise e s).busy = s.busy := by cases e <;> rfl
@[simp] theorem raise_done (e : ErrorBit) (s : State) : (raise e s).done = s.done := by cases e <;> rfl
@[simp] theorem raise_errBusy (e : ErrorBit) (s : State) : (raise e s).errBusy = (s.errBusy || e == .busy) := by cases e <;> simp [raise]
@[simp] theorem raise_errCmd (e : ErrorBit) (s : State) : (raise e s).errCmd = (s.errCmd || e == .cmd) := by cases e <;> simp [raise]
@[simp] theorem raise_errAccess (e : ErrorBit) (s : State) : (raise e s).errAccess = (s.errAccess || e == .access) := by cases e <;> simp [raise]
@[simp] theorem raise_idx (e : ErrorBit) (s : State) : (raise e s).idx = s.idx := by cases e <;> rfl
@[simp] theorem raise_acc (e : ErrorBit) (s : State) : (raise e s).acc = s.acc := by cases e <;> rfl
@[simp] theorem raise_pending (e : ErrorBit) (s : State) : (raise e s).pending = s.pending := by cases e <;> rfl
@[simp] theorem raise_choices (e : ErrorBit) (s : State) : (raise e s).choices = s.choices := by cases e <;> rfl
@[simp] theorem raise_trace (e : ErrorBit) (s : State) : (raise e s).trace = s.trace := by cases e <;> rfl

-- returnWord
@[simp] theorem returnWord_ts (w : Word) (s : State) : (returnWord w s).ts = s.ts := rfl
@[simp] theorem returnWord_lat (w : Word) (s : State) : (returnWord w s).lat = s.lat := rfl
@[simp] theorem returnWord_lon (w : Word) (s : State) : (returnWord w s).lon = s.lon := rfl
@[simp] theorem returnWord_alt (w : Word) (s : State) : (returnWord w s).alt = s.alt := rfl
@[simp] theorem returnWord_sts (w : Word) (s : State) : (returnWord w s).sts = s.sts := rfl
@[simp] theorem returnWord_slat (w : Word) (s : State) : (returnWord w s).slat = s.slat := rfl
@[simp] theorem returnWord_slon (w : Word) (s : State) : (returnWord w s).slon = s.slon := rfl
@[simp] theorem returnWord_salt (w : Word) (s : State) : (returnWord w s).salt = s.salt := rfl
@[simp] theorem returnWord_busy (w : Word) (s : State) : (returnWord w s).busy = s.busy := rfl
@[simp] theorem returnWord_done (w : Word) (s : State) : (returnWord w s).done = s.done := rfl
@[simp] theorem returnWord_errBusy (w : Word) (s : State) : (returnWord w s).errBusy = s.errBusy := rfl
@[simp] theorem returnWord_errCmd (w : Word) (s : State) : (returnWord w s).errCmd = s.errCmd := rfl
@[simp] theorem returnWord_errAccess (w : Word) (s : State) : (returnWord w s).errAccess = s.errAccess := rfl
@[simp] theorem returnWord_idx (w : Word) (s : State) : (returnWord w s).idx = s.idx := rfl
@[simp] theorem returnWord_acc (w : Word) (s : State) : (returnWord w s).acc = s.acc := rfl
@[simp] theorem returnWord_pending (w : Word) (s : State) : (returnWord w s).pending = s.pending := rfl
@[simp] theorem returnWord_choices (w : Word) (s : State) : (returnWord w s).choices = s.choices := rfl
@[simp] theorem returnWord_trace (w : Word) (s : State) : (returnWord w s).trace = s.trace ++ [.returned w] := rfl

-- latchRecord
@[simp] theorem latchRecord_ts (s : State) : (latchRecord s).ts = s.ts := rfl
@[simp] theorem latchRecord_lat (s : State) : (latchRecord s).lat = s.lat := rfl
@[simp] theorem latchRecord_lon (s : State) : (latchRecord s).lon = s.lon := rfl
@[simp] theorem latchRecord_alt (s : State) : (latchRecord s).alt = s.alt := rfl
@[simp] theorem latchRecord_sts (s : State) : (latchRecord s).sts = s.ts := rfl
@[simp] theorem latchRecord_slat (s : State) : (latchRecord s).slat = s.lat := rfl
@[simp] theorem latchRecord_slon (s : State) : (latchRecord s).slon = s.lon := rfl
@[simp] theorem latchRecord_salt (s : State) : (latchRecord s).salt = s.alt := rfl
@[simp] theorem latchRecord_busy (s : State) : (latchRecord s).busy = true := rfl
@[simp] theorem latchRecord_done (s : State) : (latchRecord s).done = false := rfl
@[simp] theorem latchRecord_errBusy (s : State) : (latchRecord s).errBusy = s.errBusy := rfl
@[simp] theorem latchRecord_errCmd (s : State) : (latchRecord s).errCmd = s.errCmd := rfl
@[simp] theorem latchRecord_errAccess (s : State) : (latchRecord s).errAccess = s.errAccess := rfl
@[simp] theorem latchRecord_idx (s : State) : (latchRecord s).idx = 0 := rfl
@[simp] theorem latchRecord_acc (s : State) : (latchRecord s).acc = 0 := rfl
@[simp] theorem latchRecord_pending (s : State) : (latchRecord s).pending = s.pending := rfl
@[simp] theorem latchRecord_choices (s : State) : (latchRecord s).choices = s.choices := rfl
@[simp] theorem latchRecord_trace (s : State) : (latchRecord s).trace = s.trace ++ [.frameStarted] := rfl

-- clearSticky
@[simp] theorem clearSticky_ts (s : State) : (clearSticky s).ts = s.ts := rfl
@[simp] theorem clearSticky_lat (s : State) : (clearSticky s).lat = s.lat := rfl
@[simp] theorem clearSticky_lon (s : State) : (clearSticky s).lon = s.lon := rfl
@[simp] theorem clearSticky_alt (s : State) : (clearSticky s).alt = s.alt := rfl
@[simp] theorem clearSticky_sts (s : State) : (clearSticky s).sts = s.sts := rfl
@[simp] theorem clearSticky_slat (s : State) : (clearSticky s).slat = s.slat := rfl
@[simp] theorem clearSticky_slon (s : State) : (clearSticky s).slon = s.slon := rfl
@[simp] theorem clearSticky_salt (s : State) : (clearSticky s).salt = s.salt := rfl
@[simp] theorem clearSticky_busy (s : State) : (clearSticky s).busy = s.busy := rfl
@[simp] theorem clearSticky_done (s : State) : (clearSticky s).done = false := rfl
@[simp] theorem clearSticky_errBusy (s : State) : (clearSticky s).errBusy = false := rfl
@[simp] theorem clearSticky_errCmd (s : State) : (clearSticky s).errCmd = false := rfl
@[simp] theorem clearSticky_errAccess (s : State) : (clearSticky s).errAccess = false := rfl
@[simp] theorem clearSticky_idx (s : State) : (clearSticky s).idx = s.idx := rfl
@[simp] theorem clearSticky_acc (s : State) : (clearSticky s).acc = s.acc := rfl
@[simp] theorem clearSticky_pending (s : State) : (clearSticky s).pending = s.pending := rfl
@[simp] theorem clearSticky_choices (s : State) : (clearSticky s).choices = s.choices := rfl
@[simp] theorem clearSticky_trace (s : State) : (clearSticky s).trace = s.trace := rfl

-- emit
@[simp] theorem emit_ts (b : Byte) (s : State) : (emit b s).ts = s.ts := rfl
@[simp] theorem emit_lat (b : Byte) (s : State) : (emit b s).lat = s.lat := rfl
@[simp] theorem emit_lon (b : Byte) (s : State) : (emit b s).lon = s.lon := rfl
@[simp] theorem emit_alt (b : Byte) (s : State) : (emit b s).alt = s.alt := rfl
@[simp] theorem emit_sts (b : Byte) (s : State) : (emit b s).sts = s.sts := rfl
@[simp] theorem emit_slat (b : Byte) (s : State) : (emit b s).slat = s.slat := rfl
@[simp] theorem emit_slon (b : Byte) (s : State) : (emit b s).slon = s.slon := rfl
@[simp] theorem emit_salt (b : Byte) (s : State) : (emit b s).salt = s.salt := rfl
@[simp] theorem emit_busy (b : Byte) (s : State) : (emit b s).busy = s.busy := rfl
@[simp] theorem emit_done (b : Byte) (s : State) : (emit b s).done = s.done := rfl
@[simp] theorem emit_errBusy (b : Byte) (s : State) : (emit b s).errBusy = s.errBusy := rfl
@[simp] theorem emit_errCmd (b : Byte) (s : State) : (emit b s).errCmd = s.errCmd := rfl
@[simp] theorem emit_errAccess (b : Byte) (s : State) : (emit b s).errAccess = s.errAccess := rfl
@[simp] theorem emit_idx (b : Byte) (s : State) : (emit b s).idx = s.idx := rfl
@[simp] theorem emit_acc (b : Byte) (s : State) : (emit b s).acc = s.acc := rfl
@[simp] theorem emit_pending (b : Byte) (s : State) : (emit b s).pending = s.pending := rfl
@[simp] theorem emit_choices (b : Byte) (s : State) : (emit b s).choices = s.choices := rfl
@[simp] theorem emit_trace (b : Byte) (s : State) : (emit b s).trace = s.trace ++ [.transferred b s.txLast] := rfl

-- emitHeader
@[simp] theorem emitHeader_ts (b : Byte) (i : BitVec 5) (s : State) : (emitHeader b i s).ts = s.ts := rfl
@[simp] theorem emitHeader_lat (b : Byte) (i : BitVec 5) (s : State) : (emitHeader b i s).lat = s.lat := rfl
@[simp] theorem emitHeader_lon (b : Byte) (i : BitVec 5) (s : State) : (emitHeader b i s).lon = s.lon := rfl
@[simp] theorem emitHeader_alt (b : Byte) (i : BitVec 5) (s : State) : (emitHeader b i s).alt = s.alt := rfl
@[simp] theorem emitHeader_sts (b : Byte) (i : BitVec 5) (s : State) : (emitHeader b i s).sts = s.sts := rfl
@[simp] theorem emitHeader_slat (b : Byte) (i : BitVec 5) (s : State) : (emitHeader b i s).slat = s.slat := rfl
@[simp] theorem emitHeader_slon (b : Byte) (i : BitVec 5) (s : State) : (emitHeader b i s).slon = s.slon := rfl
@[simp] theorem emitHeader_salt (b : Byte) (i : BitVec 5) (s : State) : (emitHeader b i s).salt = s.salt := rfl
@[simp] theorem emitHeader_busy (b : Byte) (i : BitVec 5) (s : State) : (emitHeader b i s).busy = s.busy := rfl
@[simp] theorem emitHeader_done (b : Byte) (i : BitVec 5) (s : State) : (emitHeader b i s).done = s.done := rfl
@[simp] theorem emitHeader_errBusy (b : Byte) (i : BitVec 5) (s : State) : (emitHeader b i s).errBusy = s.errBusy := rfl
@[simp] theorem emitHeader_errCmd (b : Byte) (i : BitVec 5) (s : State) : (emitHeader b i s).errCmd = s.errCmd := rfl
@[simp] theorem emitHeader_errAccess (b : Byte) (i : BitVec 5) (s : State) : (emitHeader b i s).errAccess = s.errAccess := rfl
@[simp] theorem emitHeader_idx (b : Byte) (i : BitVec 5) (s : State) : (emitHeader b i s).idx = i := rfl
@[simp] theorem emitHeader_acc (b : Byte) (i : BitVec 5) (s : State) : (emitHeader b i s).acc = s.acc := rfl
@[simp] theorem emitHeader_pending (b : Byte) (i : BitVec 5) (s : State) : (emitHeader b i s).pending = s.pending := rfl
@[simp] theorem emitHeader_choices (b : Byte) (i : BitVec 5) (s : State) : (emitHeader b i s).choices = s.choices := rfl
@[simp] theorem emitHeader_trace (b : Byte) (i : BitVec 5) (s : State) : (emitHeader b i s).trace = s.trace ++ [.transferred b s.txLast] := rfl

-- emitPayload
@[simp] theorem emitPayload_ts (b : Byte) (i : BitVec 5) (s : State) : (emitPayload b i s).ts = s.ts := rfl
@[simp] theorem emitPayload_lat (b : Byte) (i : BitVec 5) (s : State) : (emitPayload b i s).lat = s.lat := rfl
@[simp] theorem emitPayload_lon (b : Byte) (i : BitVec 5) (s : State) : (emitPayload b i s).lon = s.lon := rfl
@[simp] theorem emitPayload_alt (b : Byte) (i : BitVec 5) (s : State) : (emitPayload b i s).alt = s.alt := rfl
@[simp] theorem emitPayload_sts (b : Byte) (i : BitVec 5) (s : State) : (emitPayload b i s).sts = s.sts := rfl
@[simp] theorem emitPayload_slat (b : Byte) (i : BitVec 5) (s : State) : (emitPayload b i s).slat = s.slat := rfl
@[simp] theorem emitPayload_slon (b : Byte) (i : BitVec 5) (s : State) : (emitPayload b i s).slon = s.slon := rfl
@[simp] theorem emitPayload_salt (b : Byte) (i : BitVec 5) (s : State) : (emitPayload b i s).salt = s.salt := rfl
@[simp] theorem emitPayload_busy (b : Byte) (i : BitVec 5) (s : State) : (emitPayload b i s).busy = s.busy := rfl
@[simp] theorem emitPayload_done (b : Byte) (i : BitVec 5) (s : State) : (emitPayload b i s).done = s.done := rfl
@[simp] theorem emitPayload_errBusy (b : Byte) (i : BitVec 5) (s : State) : (emitPayload b i s).errBusy = s.errBusy := rfl
@[simp] theorem emitPayload_errCmd (b : Byte) (i : BitVec 5) (s : State) : (emitPayload b i s).errCmd = s.errCmd := rfl
@[simp] theorem emitPayload_errAccess (b : Byte) (i : BitVec 5) (s : State) : (emitPayload b i s).errAccess = s.errAccess := rfl
@[simp] theorem emitPayload_idx (b : Byte) (i : BitVec 5) (s : State) : (emitPayload b i s).idx = i := rfl
@[simp] theorem emitPayload_acc (b : Byte) (i : BitVec 5) (s : State) : (emitPayload b i s).acc = s.acc + b := rfl
@[simp] theorem emitPayload_pending (b : Byte) (i : BitVec 5) (s : State) : (emitPayload b i s).pending = s.pending := rfl
@[simp] theorem emitPayload_choices (b : Byte) (i : BitVec 5) (s : State) : (emitPayload b i s).choices = s.choices := rfl
@[simp] theorem emitPayload_trace (b : Byte) (i : BitVec 5) (s : State) : (emitPayload b i s).trace = s.trace ++ [.transferred b s.txLast] := rfl

-- emitTrailer
@[simp] theorem emitTrailer_ts (s : State) : (emitTrailer s).ts = s.ts := rfl
@[simp] theorem emitTrailer_lat (s : State) : (emitTrailer s).lat = s.lat := rfl
@[simp] theorem emitTrailer_lon (s : State) : (emitTrailer s).lon = s.lon := rfl
@[simp] theorem emitTrailer_alt (s : State) : (emitTrailer s).alt = s.alt := rfl
@[simp] theorem emitTrailer_sts (s : State) : (emitTrailer s).sts = s.sts := rfl
@[simp] theorem emitTrailer_slat (s : State) : (emitTrailer s).slat = s.slat := rfl
@[simp] theorem emitTrailer_slon (s : State) : (emitTrailer s).slon = s.slon := rfl
@[simp] theorem emitTrailer_salt (s : State) : (emitTrailer s).salt = s.salt := rfl
@[simp] theorem emitTrailer_busy (s : State) : (emitTrailer s).busy = false := rfl
@[simp] theorem emitTrailer_done (s : State) : (emitTrailer s).done = true := rfl
@[simp] theorem emitTrailer_errBusy (s : State) : (emitTrailer s).errBusy = s.errBusy := rfl
@[simp] theorem emitTrailer_errCmd (s : State) : (emitTrailer s).errCmd = s.errCmd := rfl
@[simp] theorem emitTrailer_errAccess (s : State) : (emitTrailer s).errAccess = s.errAccess := rfl
@[simp] theorem emitTrailer_idx (s : State) : (emitTrailer s).idx = 0 := rfl
@[simp] theorem emitTrailer_acc (s : State) : (emitTrailer s).acc = s.acc := rfl
@[simp] theorem emitTrailer_pending (s : State) : (emitTrailer s).pending = s.pending := rfl
@[simp] theorem emitTrailer_choices (s : State) : (emitTrailer s).choices = s.choices := rfl
@[simp] theorem emitTrailer_trace (s : State) : (emitTrailer s).trace = s.trace ++ [.transferred s.acc s.txLast] := rfl

-- resetEvent
@[simp] theorem resetEvent_ts (s : State) : (resetEvent s).ts = 0 := rfl
@[simp] theorem resetEvent_lat (s : State) : (resetEvent s).lat = 0 := rfl
@[simp] theorem resetEvent_lon (s : State) : (resetEvent s).lon = 0 := rfl
@[simp] theorem resetEvent_alt (s : State) : (resetEvent s).alt = 0 := rfl
@[simp] theorem resetEvent_sts (s : State) : (resetEvent s).sts = 0 := rfl
@[simp] theorem resetEvent_slat (s : State) : (resetEvent s).slat = 0 := rfl
@[simp] theorem resetEvent_slon (s : State) : (resetEvent s).slon = 0 := rfl
@[simp] theorem resetEvent_salt (s : State) : (resetEvent s).salt = 0 := rfl
@[simp] theorem resetEvent_busy (s : State) : (resetEvent s).busy = false := rfl
@[simp] theorem resetEvent_done (s : State) : (resetEvent s).done = false := rfl
@[simp] theorem resetEvent_errBusy (s : State) : (resetEvent s).errBusy = false := rfl
@[simp] theorem resetEvent_errCmd (s : State) : (resetEvent s).errCmd = false := rfl
@[simp] theorem resetEvent_errAccess (s : State) : (resetEvent s).errAccess = false := rfl
@[simp] theorem resetEvent_idx (s : State) : (resetEvent s).idx = 0 := rfl
@[simp] theorem resetEvent_acc (s : State) : (resetEvent s).acc = 0 := rfl
@[simp] theorem resetEvent_pending (s : State) : (resetEvent s).pending = s.pending := rfl
@[simp] theorem resetEvent_choices (s : State) : (resetEvent s).choices = s.choices := rfl
@[simp] theorem resetEvent_trace (s : State) : (resetEvent s).trace = s.trace := rfl

-- writeRecord
@[simp] theorem writeRecord_ts (r : RecordReg) (v : Word) (s : State) : (writeRecord r v s).ts = if r = .ts then v else s.ts := by cases r <;> rfl
@[simp] theorem writeRecord_lat (r : RecordReg) (v : Word) (s : State) : (writeRecord r v s).lat = if r = .lat then v else s.lat := by cases r <;> rfl
@[simp] theorem writeRecord_lon (r : RecordReg) (v : Word) (s : State) : (writeRecord r v s).lon = if r = .lon then v else s.lon := by cases r <;> rfl
@[simp] theorem writeRecord_alt (r : RecordReg) (v : Word) (s : State) : (writeRecord r v s).alt = if r = .alt then v else s.alt := by cases r <;> rfl
@[simp] theorem writeRecord_sts (r : RecordReg) (v : Word) (s : State) : (writeRecord r v s).sts = s.sts := by cases r <;> rfl
@[simp] theorem writeRecord_slat (r : RecordReg) (v : Word) (s : State) : (writeRecord r v s).slat = s.slat := by cases r <;> rfl
@[simp] theorem writeRecord_slon (r : RecordReg) (v : Word) (s : State) : (writeRecord r v s).slon = s.slon := by cases r <;> rfl
@[simp] theorem writeRecord_salt (r : RecordReg) (v : Word) (s : State) : (writeRecord r v s).salt = s.salt := by cases r <;> rfl
@[simp] theorem writeRecord_busy (r : RecordReg) (v : Word) (s : State) : (writeRecord r v s).busy = s.busy := by cases r <;> rfl
@[simp] theorem writeRecord_done (r : RecordReg) (v : Word) (s : State) : (writeRecord r v s).done = s.done := by cases r <;> rfl
@[simp] theorem writeRecord_errBusy (r : RecordReg) (v : Word) (s : State) : (writeRecord r v s).errBusy = s.errBusy := by cases r <;> rfl
@[simp] theorem writeRecord_errCmd (r : RecordReg) (v : Word) (s : State) : (writeRecord r v s).errCmd = s.errCmd := by cases r <;> rfl
@[simp] theorem writeRecord_errAccess (r : RecordReg) (v : Word) (s : State) : (writeRecord r v s).errAccess = s.errAccess := by cases r <;> rfl
@[simp] theorem writeRecord_idx (r : RecordReg) (v : Word) (s : State) : (writeRecord r v s).idx = s.idx := by cases r <;> rfl
@[simp] theorem writeRecord_acc (r : RecordReg) (v : Word) (s : State) : (writeRecord r v s).acc = s.acc := by cases r <;> rfl
@[simp] theorem writeRecord_pending (r : RecordReg) (v : Word) (s : State) : (writeRecord r v s).pending = s.pending := by cases r <;> rfl
@[simp] theorem writeRecord_choices (r : RecordReg) (v : Word) (s : State) : (writeRecord r v s).choices = s.choices := by cases r <;> rfl
@[simp] theorem writeRecord_trace (r : RecordReg) (v : Word) (s : State) : (writeRecord r v s).trace = s.trace := by cases r <;> rfl

-- views of a state that the world outside does not change
@[simp] theorem shadow_with_pending (s : State) (p : List Moment) (c : Nat) :
    State.shadow { s with pending := p, choices := c } = s.shadow := rfl
@[simp] theorem record_with_pending (s : State) (p : List Moment) (c : Nat) :
    State.record { s with pending := p, choices := c } = s.record := rfl
@[simp] theorem sent_with_pending (s : State) (p : List Moment) (c : Nat) :
    State.sent { s with pending := p, choices := c } = s.sent := rfl
@[simp] theorem txData_with_pending (s : State) (p : List Moment) (c : Nat) :
    State.txData { s with pending := p, choices := c } = s.txData := rfl
@[simp] theorem txLast_with_pending (s : State) (p : List Moment) (c : Nat) :
    State.txLast { s with pending := p, choices := c } = s.txLast := rfl
@[simp] theorem Inv_with_pending (s : State) (p : List Moment) (c : Nat) : State.Inv { s with pending := p, choices := c } ↔ s.Inv := Iff.rfl

end Sys2Proof.Machine
end

