-- ==== Sys2Proof/Laws/Fetch.lean ====
section
/-! SUPPORT. What taking the next event can do: it takes one pending event and leaves the others, and it changes
nothing but `pending` and the counter of choices. -/

namespace Sys2Proof.Machine

theorem nextMoment_none (ms : List Moment) (h : nextMoment ms = none) : ms.flatten = [] := by
  induction ms with
  | nil => rfl
  | cons m ms ih =>
    cases m with
    | nil => simpa using ih h
    | cons e es => simp [nextMoment] at h

theorem nextMoment_append (ms rest : List Moment) (h : ms.flatten ≠ []) :
    ∃ e es later, nextMoment (ms ++ rest) = some (e, es, later ++ rest) ∧
      ms.flatten = e :: es ++ later.flatten := by
  induction ms with
  | nil => simp at h
  | cons m ms ih =>
    cases m with
    | nil =>
      obtain ⟨e, es, later, h1, h2⟩ := ih (by simpa using h)
      exact ⟨e, es, later, h1, by simpa using h2⟩
    | cons e es => exact ⟨e, es, ms, rfl, by simp⟩

theorem nextMoment_empties (ms rest : List Moment) (h : ms.flatten = []) :
    nextMoment (ms ++ rest) = nextMoment rest := by
  induction ms with
  | nil => rfl
  | cons m ms ih =>
    cases m with
    | nil => simpa [nextMoment] using ih (by simpa using h)
    | cons e es => simp at h

theorem takeEvent_perm (e : Event) (es : List Event) (k : Nat) (hk : k < es.length + 1) :
    (e :: es).Perm ((takeEvent e es k).1 :: (takeEvent e es k).2) := by
  have hk' : k < (e :: es).length := by simpa using hk
  simp only [takeEvent]
  rw [List.getD_eq_getElem _ _ hk']
  exact (List.getElem_cons_eraseIdx_perm hk').symm

/-- A single event at the head is taken as it is. -/
@[simp] theorem fetch_single (s : State) (e : Event) (rest : List Moment) (h : s.pending = [e] :: rest) :
    fetch s = some (e, { s with pending := rest }) := by
  simp [fetch, nextMoment, h]

/-- One event of the moments at the front is taken; the others stay. -/
theorem fetch_append (s : State) (ms rest : List Moment) (hp : s.pending = ms ++ rest) (h : ms.flatten ≠ []) :
    ∃ e ms' c, fetch s = some (e, { s with pending := ms' ++ rest, choices := c }) ∧
      ms.flatten.Perm (e :: ms'.flatten) := by
  obtain ⟨e, es, later, h1, h2⟩ := nextMoment_append ms rest h
  unfold fetch
  rw [hp, h1]
  cases es with
  | nil => exact ⟨e, later, s.choices, rfl, by simp [h2]⟩
  | cons e' es =>
    refine ⟨_, _ :: later, s.choices + 1, rfl, ?_⟩
    rw [h2, List.flatten_cons, ← List.cons_append]
    exact (takeEvent_perm e (e' :: es) _ (Nat.mod_lt _ (by simp))).append_right _

/-- Taking an event changes `pending` and `choices` only, and takes an event that was pending. -/
theorem fetch_cases {s s' : State} {e : Event} (h : fetch s = some (e, s')) :
    ∃ p c, s' = { s with pending := p, choices := c } ∧ s.pending.flatten.Perm (e :: p.flatten) := by
  by_cases hf : s.pending.flatten = []
  · have hn := nextMoment_empties s.pending [] hf
    simp only [List.append_nil] at hn
    simp [fetch, hn, nextMoment] at h
  · obtain ⟨e₁, ms', c, h1, h2⟩ := fetch_append s s.pending [] (by simp) hf
    rw [h1] at h
    obtain ⟨rfl, rfl⟩ := by simpa using h
    exact ⟨_, _, rfl, by simpa using h2⟩

theorem fetch_none_iff (s : State) : fetch s = none ↔ s.pending.flatten = [] := by
  constructor
  · intro h
    by_contra hf
    obtain ⟨e, ms', c, h1, -⟩ := fetch_append s s.pending [] (by simp) hf
    rw [h1] at h; cases h
  · intro hf
    have hn := nextMoment_empties s.pending [] hf
    simp only [List.append_nil] at hn
    simp [fetch, hn, nextMoment]

end Sys2Proof.Machine
end

