-- ==== Sys2Proof/Laws/Frame.lean ====
section
/-! SUPPORT. Lemmas of the frame function: lengths, the accumulator over appended bytes, the serializer's
inverse, and the payload byte an index names. -/

namespace Sys2Proof

@[simp] theorem be32_length (x : Word) : (be32 x).length = 4 := rfl

@[simp] theorem payload_length (r : Record) : (payload r).length = 16 := rfl

@[simp] theorem frame_length (r : Record) : (frame r).length = 19 := rfl

theorem foldl_add (p : List Byte) (a : Byte) : p.foldl (· + ·) a = a + csum8 p := by
  induction p generalizing a with
  | nil => simp [csum8]
  | cons b p ih =>
    have h : csum8 (b :: p) = b + csum8 p := by
      show List.foldl (· + ·) (0 + b) p = _
      rw [ih]; simp
    show List.foldl (· + ·) (a + b) p = _
    rw [ih, h, BitVec.add_assoc]

@[simp] theorem csum8_nil : csum8 [] = 0 := rfl

@[simp] theorem csum8_cons (b : Byte) (p : List Byte) : csum8 (b :: p) = b + csum8 p := by
  show List.foldl (· + ·) (0 + b) p = _
  rw [foldl_add]; simp

@[simp] theorem csum8_append (p q : List Byte) : csum8 (p ++ q) = csum8 p + csum8 q := by
  induction p with
  | nil => simp
  | cons b p ih => simp [ih, BitVec.add_assoc]

/-- One more byte through the accumulator. -/
theorem csum8_take_succ (p : List Byte) (n : Nat) (b : Byte) (h : p[n]? = some b) :
    csum8 (p.take (n + 1)) = csum8 (p.take n) + b := by
  rw [List.take_add_one, h]; simp

theorem unbe32_be32 (x : Word) :
    unbe32 (x.extractLsb' 24 8) (x.extractLsb' 16 8) (x.extractLsb' 8 8) (x.extractLsb' 0 8) = x := by
  apply BitVec.eq_of_getLsbD_eq
  intro i hi
  simp only [unbe32, BitVec.getLsbD_or, BitVec.getLsbD_shiftLeft, BitVec.getLsbD_setWidth,
    BitVec.getLsbD_extractLsb']
  interval_cases i <;> simp

theorem be32_unbe32 (b0 b1 b2 b3 : Byte) : be32 (unbe32 b0 b1 b2 b3) = [b0, b1, b2, b3] := by
  have key : ∀ i, (unbe32 b0 b1 b2 b3).getLsbD i =
      if i < 8 then b3.getLsbD i else if i < 16 then b2.getLsbD (i - 8)
      else if i < 24 then b1.getLsbD (i - 16) else if i < 32 then b0.getLsbD (i - 24) else false := by
    intro i
    by_cases h : i < 32
    · simp only [unbe32, BitVec.getLsbD_or, BitVec.getLsbD_shiftLeft, BitVec.getLsbD_setWidth]
      interval_cases i <;> simp
    · rw [BitVec.getLsbD_of_ge _ _ (by omega)]; split_ifs <;> first | omega | rfl
  simp only [be32, List.cons.injEq, and_true]
  refine ⟨?_, ?_, ?_, ?_⟩ <;>
  · apply BitVec.eq_of_getLsbD_eq
    intro i hi
    simp only [BitVec.getLsbD_extractLsb', key, hi, decide_true, Bool.true_and]
    interval_cases i <;> simp

theorem be32_injective (x y : Word) (h : be32 x = be32 y) : x = y := by
  rw [← unbe32_be32 x, ← unbe32_be32 y]
  simp only [be32, List.cons.injEq, and_true] at h
  obtain ⟨h3, h2, h1, h0⟩ := h
  rw [h3, h2, h1, h0]

theorem payload_injective (r r' : Record) (h : payload r = payload r') : r = r' := by
  obtain ⟨a, b, c, d⟩ := r
  obtain ⟨a', b', c', d'⟩ := r'
  simp only [payload] at h
  obtain ⟨h, h4⟩ := List.append_inj h rfl
  obtain ⟨h, h3⟩ := List.append_inj h rfl
  obtain ⟨h1, h2⟩ := List.append_inj h rfl
  rw [be32_injective _ _ h1, be32_injective _ _ h2, be32_injective _ _ h3, be32_injective _ _ h4]

theorem frame_injective (r r' : Record) (h : frame r = frame r') : r = r' := by
  obtain ⟨h, -⟩ := List.append_inj h rfl
  exact payload_injective _ _ (List.append_inj h rfl).2

/-- What the sequencer offers at index `i`, with the accumulator R29 gives it, is the frame's byte `i`. -/
theorem frame_getElem? (r : Record) (acc : Byte) (i : Nat) (hi : i ≤ 18) (ha : i = 18 → acc = csum8 (payload r)) :
    (frame r)[i]? = frameByte r acc i := by
  by_cases h : i = 18
  · subst h; simp [frameByte, frame, payload, be32, ha rfl]
  · have : i < 18 := by omega
    clear ha hi h
    interval_cases i <;> rfl

theorem frameByte_isSome (r : Record) (acc : Byte) (i : Nat) (hi : i ≤ 18) : ∃ b, frameByte r acc i = some b := by
  interval_cases i <;> exact ⟨_, rfl⟩

end Sys2Proof
end

