-- ==== Sys2Proof/Laws/Step.lean ====
section
/-! SUPPORT. Everything one event can do, said once: the host's reads and writes, the sink's acceptance, the
reset. Later proofs cite these and unfold neither `exec` nor `perform`. -/

namespace Sys2Proof.Machine

theorem wordAddress_cases (wa : BitVec 3) :
    wa = 0 ∨ wa = 1 ∨ wa = 2 ∨ wa = 3 ∨ wa = 4 ∨ wa = 5 ∨ wa = 6 ∨ wa = 7 := by
  revert wa; decide

theorem index_cases (i : BitVec 5) (h : i.toNat ≤ 18) :
    i = 0 ∨ i = 1 ∨ i = 2 ∨ i = 3 ∨ i = 4 ∨ i = 5 ∨ i = 6 ∨ i = 7 ∨ i = 8 ∨ i = 9 ∨ i = 10 ∨ i = 11 ∨
      i = 12 ∨ i = 13 ∨ i = 14 ∨ i = 15 ∨ i = 16 ∨ i = 17 ∨ i = 18 := by
  revert i; decide

theorem index_succ (i : BitVec 5) (h : i.toNat < 18) : (i + 1).toNat = i.toNat + 1 := by
  revert i; decide

/-- TX_LAST is 0 before byte 18 (10_state.md R27). -/
theorem txLast_of_lt (s : State) (h : s.idx.toNat < 18) : s.txLast = false := by
  have hne : (s.idx == 18) = false := beq_false_of_ne fun he => by rw [he] at h; exact absurd h (by decide)
  rw [State.txLast, hne, Bool.and_false]

theorem step_of_fetch {s s' : State} {e : Event} (h : fetch s = some (e, s')) : step s = perform e s' := by
  simp [step, h]

theorem step_of_none {s : State} (h : fetch s = none) : step s = .next s := by
  simp [step, h]

@[simp] theorem perform_reset (s : State) : perform .reset s = .next (resetEvent s) := rfl

@[simp] theorem perform_sinkReady_idle (s : State) (h : s.busy = false) : perform .sinkReady s = .next s := by
  simp [perform, selectAction, h]

/-- A read adds the word it returns to the trace and does nothing else. -/
theorem perform_busRead (wa : BitVec 3) (s : State) :
    ∃ w, ∀ t : State, t.ts = s.ts → t.lat = s.lat → t.lon = s.lon → t.alt = s.alt →
      statusWord t = statusWord s → t.acc = s.acc → perform (.busRead wa) t = .next (returnWord w t) := by
  obtain rfl | rfl | rfl | rfl | rfl | rfl | rfl | rfl := wordAddress_cases wa
  · exact ⟨s.ts, fun t h _ _ _ _ _ => by rw [← h]; rfl⟩
  · exact ⟨s.lat, fun t _ h _ _ _ _ => by rw [← h]; rfl⟩
  · exact ⟨s.lon, fun t _ _ h _ _ _ => by rw [← h]; rfl⟩
  · exact ⟨s.alt, fun t _ _ _ h _ _ => by rw [← h]; rfl⟩
  · exact ⟨0, fun _ _ _ _ _ _ _ => rfl⟩
  · exact ⟨statusWord s, fun t _ _ _ _ h _ => by rw [← h]; rfl⟩
  · exact ⟨s.acc.setWidth 32, fun t _ _ _ _ _ h => by rw [← h]; rfl⟩
  · exact ⟨0, fun _ _ _ _ _ _ _ => rfl⟩

theorem perform_busRead_next (wa : BitVec 3) (s : State) : ∃ w, perform (.busRead wa) s = .next (returnWord w s) := by
  obtain ⟨w, h⟩ := perform_busRead wa s
  exact ⟨w, h s rfl rfl rfl rfl rfl rfl⟩

/-- The seven things a host write can do (R119 to R130), with the address and data each needs. -/
theorem perform_busWrite (wa : BitVec 3) (v : Word) (s : State) : ∃ t, perform (.busWrite wa v) s = .next t ∧
    ((wa = 0 ∧ t = writeRecord .ts v s) ∨ (wa = 1 ∧ t = writeRecord .lat v s) ∨
      (wa = 2 ∧ t = writeRecord .lon v s) ∨ (wa = 3 ∧ t = writeRecord .alt v s) ∨
      (wa = 4 ∧ v = 0 ∧ t = s) ∨
      (wa = 4 ∧ v = 1 ∧ s.busy = false ∧ t = latchRecord s) ∨
      (wa = 4 ∧ v = 1 ∧ s.busy = true ∧ t = raise .busy s) ∨
      (wa = 4 ∧ v = 2 ∧ t = clearSticky s) ∨
      (wa = 4 ∧ v ≠ 0 ∧ v ≠ 1 ∧ v ≠ 2 ∧ t = raise .cmd s) ∨
      ((wa = 5 ∨ wa = 6 ∨ wa = 7) ∧ t = raise .access s)) := by
  obtain rfl | rfl | rfl | rfl | rfl | rfl | rfl | rfl := wordAddress_cases wa
  · exact ⟨_, rfl, by simp⟩
  · exact ⟨_, rfl, by simp⟩
  · exact ⟨_, rfl, by simp⟩
  · exact ⟨_, rfl, by simp⟩
  · refine ⟨_, rfl, ?_⟩
    by_cases h0 : v = 0#32
    · simp [runCommand, h0]
    · by_cases h1 : v = 1#32
      · cases hb : s.busy <;> simp [runCommand, startFrame, h1, hb]
      · by_cases h2 : v = 2#32
        · simp [runCommand, h2]
        · simp [runCommand, h0, h1, h2]
  · exact ⟨_, rfl, by simp⟩
  · exact ⟨_, rfl, by simp⟩
  · exact ⟨_, rfl, by simp⟩

/-- A sink acceptance transfers the byte offered and is a header step, a payload step or the trailer step
(R141). -/
theorem perform_sinkReady (s : State) (hb : s.busy = true) (hi : s.idx.toNat ≤ 18) :
    ∃ b t, frameByte s.shadow s.acc s.idx.toNat = some b ∧ perform .sinkReady s = .next t ∧
      ((s.idx.toNat ≤ 1 ∧ t = emitHeader b (s.idx + 1) s) ∨
        (2 ≤ s.idx.toNat ∧ s.idx.toNat ≤ 17 ∧ (payload s.shadow)[s.idx.toNat - 2]? = some b ∧
          t = emitPayload b (s.idx + 1) s) ∨
        (s.idx = 18 ∧ b = s.acc ∧ t = emitTrailer s)) := by
  obtain h | h | h | h | h | h | h | h | h | h | h | h | h | h | h | h | h | h | h := index_cases s.idx hi
  case inr.inr.inr.inr.inr.inr.inr.inr.inr.inr.inr.inr.inr.inr.inr.inr.inr.inr =>
    refine ⟨s.acc, emitTrailer s, by rw [h]; rfl, ?_, Or.inr (Or.inr ⟨h, rfl, rfl⟩)⟩
    simp only [perform, selectAction, hb, h]
    exact if_pos hb
  case inl =>
    refine ⟨startDelimiter, emitHeader startDelimiter 1 s, by rw [h]; rfl, ?_, Or.inl (by rw [h]; exact ⟨by decide, rfl⟩)⟩
    simp only [perform, selectAction, hb, h]
    exact if_pos hb
  case inr.inl =>
    refine ⟨payloadLength, emitHeader payloadLength 2 s, by rw [h]; rfl, ?_, Or.inl (by rw [h]; exact ⟨by decide, rfl⟩)⟩
    simp only [perform, selectAction, hb, h]
    exact if_pos hb
  all_goals
    refine ⟨_, emitPayload _ _ s, by rw [h]; rfl, ?_, Or.inr (Or.inl (by
      rw [h]; exact ⟨by decide, by decide, rfl, rfl⟩))⟩
    simp only [perform, selectAction, hb, h]
    exact if_pos hb

/-- At IDX 19 to 31 an acceptance faults (R161). -/
theorem perform_sinkReady_invalid (s : State) (hb : s.busy = true) (hi : ¬ s.idx.toNat ≤ 18) :
    perform .sinkReady s = .fault .seqInvalid := by
  have key : ∀ i : BitVec 5, ¬ i.toNat ≤ 18 →
      decodeSeq i = .seqInvalid19 ∨ (∃ lo, decodeSeq i = .seqInvalid20 lo) ∨ ∃ lo, decodeSeq i = .seqInvalid24 lo := by
    decide
  simp only [perform, selectAction, hb, if_true]
  obtain h | ⟨lo, h⟩ | ⟨lo, h⟩ := key s.idx hi <;> rw [h] <;> rfl

/-- Everything an event that does not stop can do: the one inversion lemma of `perform`. -/
theorem perform_cases {e : Event} {s t : State} (h : perform e s = .next t) :
    (∃ wa w, e = .busRead wa ∧ t = returnWord w s) ∨
    (∃ v, e = .busWrite 0 v ∧ t = writeRecord .ts v s) ∨
    (∃ v, e = .busWrite 1 v ∧ t = writeRecord .lat v s) ∨
    (∃ v, e = .busWrite 2 v ∧ t = writeRecord .lon v s) ∨
    (∃ v, e = .busWrite 3 v ∧ t = writeRecord .alt v s) ∨
    (e = .busWrite 4 0 ∧ t = s) ∨
    (e = .busWrite 4 1 ∧ s.busy = false ∧ t = latchRecord s) ∨
    (e = .busWrite 4 1 ∧ s.busy = true ∧ t = raise .busy s) ∨
    (e = .busWrite 4 2 ∧ t = clearSticky s) ∨
    (∃ v, e = .busWrite 4 v ∧ v ≠ 0 ∧ v ≠ 1 ∧ v ≠ 2 ∧ t = raise .cmd s) ∨
    (∃ wa v, e = .busWrite wa v ∧ (wa = 5 ∨ wa = 6 ∨ wa = 7) ∧ t = raise .access s) ∨
    (e = .reset ∧ t = resetEvent s) ∨
    (e = .sinkReady ∧ s.busy = false ∧ t = s) ∨
    (e = .sinkReady ∧ s.busy = true ∧ s.idx.toNat ≤ 1 ∧
      ∃ b, frameByte s.shadow s.acc s.idx.toNat = some b ∧ t = emitHeader b (s.idx + 1) s) ∨
    (e = .sinkReady ∧ s.busy = true ∧ 2 ≤ s.idx.toNat ∧ s.idx.toNat ≤ 17 ∧
      ∃ b, frameByte s.shadow s.acc s.idx.toNat = some b ∧ (payload s.shadow)[s.idx.toNat - 2]? = some b ∧
        t = emitPayload b (s.idx + 1) s) ∨
    (e = .sinkReady ∧ s.busy = true ∧ s.idx = 18 ∧ t = emitTrailer s) := by
  cases e with
  | reset => cases h; simp
  | busRead wa =>
    obtain ⟨w, h'⟩ := perform_busRead_next wa s
    rw [h] at h'; cases h'; exact Or.inl ⟨wa, w, rfl, rfl⟩
  | busWrite wa v =>
    obtain ⟨t', h', hc⟩ := perform_busWrite wa v s
    rw [h] at h'; cases h'
    rcases hc with ⟨rfl, rfl⟩ | ⟨rfl, rfl⟩ | ⟨rfl, rfl⟩ | ⟨rfl, rfl⟩ | ⟨rfl, rfl, rfl⟩ | ⟨rfl, rfl, hb, rfl⟩ |
      ⟨rfl, rfl, hb, rfl⟩ | ⟨rfl, rfl, rfl⟩ | ⟨rfl, h0, h1, h2, rfl⟩ | ⟨hw, rfl⟩
    · exact Or.inr (Or.inl ⟨v, rfl, rfl⟩)
    · exact Or.inr (Or.inr (Or.inl ⟨v, rfl, rfl⟩))
    · exact Or.inr (Or.inr (Or.inr (Or.inl ⟨v, rfl, rfl⟩)))
    · exact Or.inr (Or.inr (Or.inr (Or.inr (Or.inl ⟨v, rfl, rfl⟩))))
    · exact Or.inr (Or.inr (Or.inr (Or.inr (Or.inr (Or.inl ⟨rfl, rfl⟩)))))
    · exact Or.inr (Or.inr (Or.inr (Or.inr (Or.inr (Or.inr (Or.inl ⟨rfl, hb, rfl⟩))))))
    · exact Or.inr (Or.inr (Or.inr (Or.inr (Or.inr (Or.inr (Or.inr (Or.inl ⟨rfl, hb, rfl⟩)))))))
    · exact Or.inr (Or.inr (Or.inr (Or.inr (Or.inr (Or.inr (Or.inr (Or.inr (Or.inl ⟨rfl, rfl⟩))))))))
    · exact Or.inr (Or.inr (Or.inr (Or.inr (Or.inr (Or.inr (Or.inr (Or.inr (Or.inr (Or.inl
        ⟨v, rfl, h0, h1, h2, rfl⟩)))))))))
    · exact Or.inr (Or.inr (Or.inr (Or.inr (Or.inr (Or.inr (Or.inr (Or.inr (Or.inr (Or.inr (Or.inl
        ⟨wa, v, rfl, hw, rfl⟩))))))))))
  | sinkReady =>
    iterate 12 refine Or.inr ?_
    cases hb : s.busy with
    | false => rw [perform_sinkReady_idle s hb] at h; cases h; exact Or.inl ⟨rfl, rfl, rfl⟩
    | true =>
      by_cases hi : s.idx.toNat ≤ 18
      · obtain ⟨b, t', hf, h', hc⟩ := perform_sinkReady s hb hi
        rw [h] at h'; cases h'
        rcases hc with ⟨h1, ht⟩ | ⟨h2, h17, hp, ht⟩ | ⟨h18, -, ht⟩
        · exact Or.inr (Or.inl ⟨rfl, rfl, h1, b, hf, ht⟩)
        · exact Or.inr (Or.inr (Or.inl ⟨rfl, rfl, h2, h17, b, hf, hp, ht⟩))
        · exact Or.inr (Or.inr (Or.inr ⟨rfl, rfl, h18, ht⟩))
      · rw [perform_sinkReady_invalid s hb hi] at h; cases h

/-- An event that is neither an acceptance nor a reset keeps what a frame in progress is made of. -/
theorem perform_host_keeps (e : Event) (s : State) (hb : s.busy = true) (h1 : e ≠ .sinkReady) (h2 : e ≠ .reset) :
    ∃ t, perform e s = .next t ∧ t.busy = true ∧ t.idx = s.idx ∧ t.acc = s.acc ∧ t.shadow = s.shadow ∧
      t.sent = s.sent ∧ t.pending = s.pending ∧ (s.done = false → t.done = false) := by
  cases e with
  | sinkReady => exact absurd rfl h1
  | reset => exact absurd rfl h2
  | busRead wa =>
    obtain ⟨w, h⟩ := perform_busRead_next wa s
    exact ⟨_, h, by simp [hb, State.shadow, State.sent, Obs.byte?]⟩
  | busWrite wa v =>
    obtain ⟨t, h, hc⟩ := perform_busWrite wa v s
    refine ⟨t, h, ?_⟩
    rcases hc with ⟨-, rfl⟩ | ⟨-, rfl⟩ | ⟨-, rfl⟩ | ⟨-, rfl⟩ | ⟨-, -, rfl⟩ | ⟨-, -, h, -⟩ | ⟨-, -, -, rfl⟩ | ⟨-, -, rfl⟩ |
      ⟨-, -, -, -, rfl⟩ | ⟨-, rfl⟩
    case inr.inr.inr.inr.inr.inl => simp [hb] at h
    all_goals simp [hb, State.shadow, State.sent]

end Sys2Proof.Machine
end

