-- ==== Sys2Proof/Laws/Run.lean ====
section
/-! SUPPORT. Runs over the pending moments: the induction over events packaged once, whatever serial order the
free choices take. -/

namespace Sys2Proof.Machine

theorem runSteps_succ {s t : State} (k : Nat) (h : step s = .next t) : runSteps (k + 1) s = runSteps k t := by
  have hc : core.step s = .next t := h
  have hr : ∀ (M : Host.Core) (u v : M.State), M.step u = .next v → M.run (k + 1) u = M.run k v := by
    intro M u v huv
    simp [Host.Core.run, huv]
  exact hr core s t hc

@[simp] theorem runSteps_zero (s : State) : runSteps 0 s = .next s := rfl

/-- If a property indexed by the acceptances still to come survives every host event and loses one acceptance at
every sink event, it holds at index 0 once all events of the moments have happened. -/
theorem run_moments (Q : Nat → State → Prop)
    (hpend : ∀ n s p c, Q n s → Q n { s with pending := p, choices := c })
    (hsink : ∀ n s, Q (n + 1) s → ∃ t, perform .sinkReady s = .next t ∧ Q n t ∧ t.pending = s.pending)
    (hhost : ∀ n s e, Q n s → e ≠ .sinkReady → e ≠ .reset →
      ∃ t, perform e s = .next t ∧ Q n t ∧ t.pending = s.pending)
    (k : Nat) : ∀ (ms rest : List Moment) (s : State), ms.flatten.length = k → noReset ms → Q (acceptances ms) s →
      s.pending = ms ++ rest →
      ∃ t ms', runSteps k s = .next t ∧ Q 0 t ∧ t.pending = ms' ++ rest ∧ ms'.flatten = [] := by
  induction k with
  | zero =>
    intro ms rest s hk _ hQ hp
    have hf : ms.flatten = [] := List.eq_nil_of_length_eq_zero hk
    exact ⟨s, ms, rfl, by simpa [acceptances, hf] using hQ, hp, hf⟩
  | succ k ih =>
    intro ms rest s hk hr hQ hp
    have hf : ms.flatten ≠ [] := by intro h; simp [h] at hk
    obtain ⟨e, ms', c, hfetch, hperm⟩ := fetch_append s ms rest hp hf
    have hlen : ms'.flatten.length = k := by
      have h := hperm.length_eq
      rw [List.length_cons, hk] at h
      exact (Nat.succ.inj h).symm
    have hr' : noReset ms' := fun e' he' => hr e' (hperm.mem_iff.mpr (List.mem_cons_of_mem _ he'))
    have he : e ≠ .reset := hr e (hperm.mem_iff.mpr List.mem_cons_self)
    have hcount : acceptances ms = acceptances ms' + if e = .sinkReady then 1 else 0 := by
      simp only [acceptances, hperm.count_eq, List.count_cons, beq_iff_eq]
    have hstep := step_of_fetch hfetch
    have hQ' := hpend _ _ (ms' ++ rest) c hQ
    have : ∃ t, perform e { s with pending := ms' ++ rest, choices := c } = .next t ∧ Q (acceptances ms') t ∧
        t.pending = ms' ++ rest := by
      by_cases hs : e = .sinkReady
      · subst hs
        rw [hcount, if_pos rfl] at hQ'
        exact hsink _ _ hQ'
      · rw [hcount, if_neg hs] at hQ'
        exact hhost _ _ e hQ' hs he
    obtain ⟨t, ht, hQt, hpt⟩ := this
    rw [ht] at hstep
    rw [runSteps_succ k hstep]
    exact ih ms' rest t hlen hr' hQt hpt

end Sys2Proof.Machine
end

