-- ==== Sys2Proof/Laws/Ops.lean ====
section
/-! SUPPORT. One lemma per shared operation that branches, saying all it can do, and three facts of a frame in
progress that the laws of the sequencer rest on. -/

namespace Sys2Proof.Machine

/-- A sink acceptance happens exactly when BUSY = 1 (R140). -/
theorem sinkAccept_next_iff (f : State → State) (s t : State) :
    sinkAccept f s = .next t ↔ s.busy = true ∧ t = f s := by
  cases hb : s.busy <;> simp [sinkAccept, hb, eq_comm]

theorem sinkAccept_busy (f : State → State) (s : State) (h : s.busy = true) : sinkAccept f s = .next (f s) := by
  simp [sinkAccept, h]

/-- START is accepted or refused (R128). -/
theorem startFrame_cases (s : State) :
    (s.busy = false ∧ startFrame s = latchRecord s) ∨ (s.busy = true ∧ startFrame s = raise .busy s) := by
  cases hb : s.busy <;> simp [startFrame, hb]

/-- The four commands (R69). -/
theorem runCommand_cases (v : Word) (s : State) :
    (v = 0 ∧ runCommand v s = s) ∨ (v = 1 ∧ runCommand v s = startFrame s) ∨
      (v = 2 ∧ runCommand v s = clearSticky s) ∨
      (v ≠ 0 ∧ v ≠ 1 ∧ v ≠ 2 ∧ runCommand v s = raise .cmd s) := by
  unfold runCommand
  split_ifs with h0 h1 h2
  · exact Or.inl ⟨h0, rfl⟩
  · exact Or.inr (Or.inl ⟨h1, rfl⟩)
  · exact Or.inr (Or.inr (Or.inl ⟨h2, rfl⟩))
  · exact Or.inr (Or.inr (Or.inr ⟨h0, h1, h2, rfl⟩))

/-- WR_CMD is the instruction its DATA decodes to (R123). -/
theorem exec_wrCmd (v : Word) (s : State) : exec (.wrCmd v) s = exec (decodeCmd v) s := by
  show Host.Outcome.next (runCommand v s) = _
  unfold runCommand decodeCmd
  split_ifs <;> rfl

/-- At IDX = 18 with BUSY = 1 an acceptance is the trailer step (R160). -/
theorem perform_sinkReady_last (s : State) (hb : s.busy = true) (hi : s.idx = 18) :
    perform .sinkReady s = .next (emitTrailer s) := by
  simp only [perform, selectAction, hb, if_true, hi]
  exact sinkAccept_busy _ s hb

/-- In a state that meets R29 the byte on offer is the frame's byte at IDX. -/
theorem frame_getElem?_idx (s : State) (hi : s.Inv) (hb : s.busy = true) :
    (frame s.shadow)[s.idx.toNat]? = frameByte s.shadow s.acc s.idx.toNat := by
  refine frame_getElem? _ _ _ (hi.2.1 hb) fun h => ?_
  rw [hi.2.2.1 hb (by omega) (by omega), h, List.take_of_length_le (by simp)]

/-- An event that is no acceptance, no reset and no accepted START keeps what R29 speaks of. -/
theorem State.Inv.of_kept {s t : State} (hi : s.Inv) (hb : t.busy = s.busy) (hx : t.idx = s.idx) (ha : t.acc = s.acc)
    (hs : t.shadow = s.shadow) (hd : s.done = false → t.done = false) : t.Inv := by
  obtain ⟨h1, h2, h3, h4, h5⟩ := hi
  refine ⟨?_, ?_, ?_, ?_, ?_⟩ <;> rw [hb] <;> try rw [hx]
  · exact h1
  · exact h2
  · rw [ha, hs]; exact h3
  · rw [ha]; exact h4
  · exact fun h => hd (h5 h)

end Sys2Proof.Machine
end

