-- ==== Sys2Proof/Laws/PerInstr.lean ====
section
/-! SUPPORT. What is stated of every instruction, one lemma per constructor. RoundTrip: decoding a well-formed
instruction's encoding gives it back, as a code and as an opcode-table word. -/

namespace Sys2Proof.Laws

/-- A BUS code survives its table word: T in bits 3:0, DATA in bits 35:4. -/
theorem codeOfTableWord_bus (t : BitVec 4) (data : Word) :
    codeOfTableWord 36 (t.toNat + 16 * data.toNat) = .ok (.bus t data) := by
  have ht := t.isLt
  have hd := data.isLt
  have h1 : t.toNat + 16 * data.toNat < 68719476736 := by omega
  have h2 : BitVec.ofNat 4 (t.toNat + 16 * data.toNat) = t := by
    apply BitVec.eq_of_toNat_eq; simp; omega
  have h3 : BitVec.ofNat 32 ((t.toNat + 16 * data.toNat) / 16) = data := by
    apply BitVec.eq_of_toNat_eq; simp; omega
  simp [codeOfTableWord, h1, h2, h3]

/-- A command word survives its table word (R68). -/
theorem codeOfTableWord_cmd (op : Word) : codeOfTableWord 32 op.toNat = .ok (.cmd op) := by
  have h := op.isLt
  simp [codeOfTableWord]; omega

/-- A SEQ code survives its table word. -/
theorem codeOfTableWord_seq (idx : BitVec 5) : codeOfTableWord 5 idx.toNat = .ok (.seq idx) := by
  have h := idx.isLt
  simp [codeOfTableWord]; omega

/-- Every code survives its table word. -/
theorem codeOfTableWord_toTableWord (c : Code) : codeOfTableWord c.toTableWord.1 c.toTableWord.2 = .ok c := by
  cases c with
  | bus t data => exact codeOfTableWord_bus t data
  | cmd op => exact codeOfTableWord_cmd op
  | seq idx => exact codeOfTableWord_seq idx

/-- What decodes as a code decodes as its table word. -/
theorem decodeTableWord_of_decode {c : Code} {i : Instr} (h : decode c = .ok i) :
    decodeTableWord c.toTableWord.1 c.toTableWord.2 = some i := by
  rw [decodeTableWord, codeOfTableWord_toTableWord]
  simp [h, Except.toOption]

namespace RoundTrip

/-- Decoding the encoding of `i` gives `i` back. -/
def Statement (i : Instr) : Prop :=
  i.wf = true → decode (encode i) = .ok i ∧
    decodeTableWord (encode i).toTableWord.1 (encode i).toTableWord.2 = some i

theorem of_decode {i : Instr} (h : decode (encode i) = .ok i) : Statement i :=
  fun _ => ⟨h, decodeTableWord_of_decode h⟩

theorem rdTs : Statement .rdTs := of_decode rfl
theorem rdLat : Statement .rdLat := of_decode rfl
theorem rdLon : Statement .rdLon := of_decode rfl
theorem rdAlt : Statement .rdAlt := of_decode rfl
theorem rdCmd : Statement .rdCmd := of_decode rfl
theorem rdStatus : Statement .rdStatus := of_decode rfl
theorem rdCsum : Statement .rdCsum := of_decode rfl
theorem rdRsvd7 : Statement .rdRsvd7 := of_decode rfl
theorem wrTs (data : Word) : Statement (.wrTs data) := of_decode rfl
theorem wrLat (data : Word) : Statement (.wrLat data) := of_decode rfl
theorem wrLon (data : Word) : Statement (.wrLon data) := of_decode rfl
theorem wrAlt (data : Word) : Statement (.wrAlt data) := of_decode rfl
theorem wrCmd (data : Word) : Statement (.wrCmd data) := of_decode rfl
theorem wrStatus (data : Word) : Statement (.wrStatus data) := of_decode rfl
theorem wrCsum (data : Word) : Statement (.wrCsum data) := of_decode rfl
theorem wrRsvd7 (data : Word) : Statement (.wrRsvd7 data) := of_decode rfl
theorem nop : Statement .nop := of_decode rfl
theorem start : Statement .start := of_decode rfl
theorem clearStatus : Statement .clearStatus := of_decode rfl
theorem cmdRsvd (op : Word) : Statement (.cmdRsvd op) := fun h => by
  have hd : decode (encode (.cmdRsvd op)) = .ok (.cmdRsvd op) := by
    simp only [Instr.wf, definedCommand, Bool.not_eq_true', Bool.or_eq_false_iff, beq_eq_false_iff_ne] at h
    simp only [encode, decode, decodeCmd]
    rw [if_neg h.1.1, if_neg h.1.2, if_neg h.2]
  exact of_decode hd h
theorem emitDelim : Statement .emitDelim := of_decode rfl
theorem emitLen : Statement .emitLen := of_decode rfl
theorem emitTsB3 : Statement .emitTsB3 := of_decode rfl
theorem emitTsB2 : Statement .emitTsB2 := of_decode rfl
theorem emitTsB1 : Statement .emitTsB1 := of_decode rfl
theorem emitTsB0 : Statement .emitTsB0 := of_decode rfl
theorem emitLatB3 : Statement .emitLatB3 := of_decode rfl
theorem emitLatB2 : Statement .emitLatB2 := of_decode rfl
theorem emitLatB1 : Statement .emitLatB1 := of_decode rfl
theorem emitLatB0 : Statement .emitLatB0 := of_decode rfl
theorem emitLonB3 : Statement .emitLonB3 := of_decode rfl
theorem emitLonB2 : Statement .emitLonB2 := of_decode rfl
theorem emitLonB1 : Statement .emitLonB1 := of_decode rfl
theorem emitLonB0 : Statement .emitLonB0 := of_decode rfl
theorem emitAltB3 : Statement .emitAltB3 := of_decode rfl
theorem emitAltB2 : Statement .emitAltB2 := of_decode rfl
theorem emitAltB1 : Statement .emitAltB1 := of_decode rfl
theorem emitAltB0 : Statement .emitAltB0 := of_decode rfl
theorem emitCsum : Statement .emitCsum := of_decode rfl
theorem seqInvalid19 : Statement .seqInvalid19 := of_decode rfl
theorem seqInvalid20 (lo : BitVec 2) : Statement (.seqInvalid20 lo) :=
  of_decode (by revert lo; decide)
theorem seqInvalid24 (lo : BitVec 3) : Statement (.seqInvalid24 lo) :=
  of_decode (by revert lo; decide)

end RoundTrip

end Sys2Proof.Laws
end

