-- ==== Sys2Proof/Laws/Platform.lean ====
section
/-! SUPPORT. What a step of a platform can do, said once. -/

namespace Sys2Proof.Machine

@[simp] theorem Platform.reset_instances (n : Nat) :
    (Platform.reset n).instances = List.replicate n State.reset := rfl

@[simp] theorem Platform.reset_choices (n : Nat) : (Platform.reset n).choices = 0 := rfl

/-- A platform step that answers a next platform is a step of instance `k` with the platform's count, or finds no
such instance. -/
theorem Platform.step_cases {k : Nat} {p q : Platform} (h : Platform.step k p = .next q) :
    (p.instances[k]? = none ∧ q = p) ∨
    ∃ s t, p.instances[k]? = some s ∧ Machine.step { s with choices := p.choices } = .next t ∧
      q = ⟨p.instances.set k t, t.choices⟩ := by
  unfold Platform.step at h
  split at h
  case h_1 hk => cases h; exact .inl ⟨hk, rfl⟩
  case h_2 s hk =>
    split at h
    case h_1 t ht => cases h; exact .inr ⟨s, t, hk, ht, rfl⟩
    all_goals cases h

/-- An event makes no choice of a serial order: only taking it from a moment does. -/
theorem perform_keeps_choices {e : Event} {s t : State} (h : perform e s = .next t) : t.choices = s.choices := by
  rcases perform_cases h with ⟨wa, w, rfl, rfl⟩ | ⟨v, rfl, rfl⟩ | ⟨v, rfl, rfl⟩ | ⟨v, rfl, rfl⟩ | ⟨v, rfl, rfl⟩ |
    ⟨rfl, rfl⟩ | ⟨rfl, hb, rfl⟩ | ⟨rfl, hb, rfl⟩ | ⟨rfl, rfl⟩ | ⟨v, rfl, h0, h1, h2, rfl⟩ | ⟨wa, v, rfl, hw, rfl⟩ |
    ⟨rfl, rfl⟩ | ⟨rfl, hb, rfl⟩ | ⟨rfl, hb, hi, b, hby, rfl⟩ | ⟨rfl, hb, hi, hi', b, hby, hp, rfl⟩ | ⟨rfl, hb, hi, rfl⟩ <;>
  simp

/-- A race at any instance moves the platform's count on, so the next race, at whichever instance, reads the free
value at another place (log 17). -/
theorem Platform.race_moves_choices {k : Nat} {p q : Platform} {s : State} {a b : Event} {es : List Event}
    {rest : List Moment} (hs : p.instances[k]? = some s) (hp : s.pending = (a :: b :: es) :: rest)
    (h : Platform.step k p = .next q) : q.choices = p.choices + 1 := by
  obtain ⟨hk, -⟩ | ⟨s', t, hk, ht, rfl⟩ := Platform.step_cases h
  · rw [hs] at hk; cases hk
  · rw [hs] at hk; cases hk
    have hf : ∃ e u, fetch { s with choices := p.choices } = some (e, u) ∧ u.choices = p.choices + 1 := by
      simp [fetch, hp, nextMoment]
    obtain ⟨e, u, hf, hu⟩ := hf
    rw [step_of_fetch hf] at ht
    exact (perform_keeps_choices ht).trans hu

end Sys2Proof.Machine
end

