-- ==== Sys2Proof/Tests/Slice0.lean ====
section
/-! SUPPORT. The model's own tests, and a witness for every statement with hypotheses. Expected values are the
spec's: 95_test_vectors.md (the row is named in each comment) or the encoding tables of 30_encoding.md. -/

namespace Sys2Proof.Machine.Tests

open Sys2Proof Sys2Proof.Machine

/-- The record V7 of 95_test_vectors.md. -/
def recordV7 : Record := ⟨0x01020304, 0x05060708, 0x090A0B0C, 0x0D0E0F10⟩

/-- A frame of V7 in progress at index `i` with accumulator `acc` (95_test_vectors.md S1). -/
def inFrame (i : BitVec 5) (acc : Byte) : State :=
  { State.reset with
    ts := recordV7.ts, lat := recordV7.lat, lon := recordV7.lon, alt := recordV7.alt
    sts := recordV7.ts, slat := recordV7.lat, slon := recordV7.lon, salt := recordV7.alt
    busy := true, idx := i, acc := acc }

/-- Only the event `e` is pending. -/
def withEvent (e : Event) (s : State) : State := { s with pending := [[e]] }

/-- The state after one step in which only `e` is pending. -/
def after (e : Event) (s : State) : Option State := nextState? (step (withEvent e s))

/-! ### Well-formedness: the one check, and that it refuses -/

theorem test_wf_refuses_nop_word : (Instr.cmdRsvd 0x00000000).wf = false := by decide
theorem test_wf_refuses_start_word : (Instr.cmdRsvd 0x00000001).wf = false := by decide
theorem test_wf_refuses_clear_word : (Instr.cmdRsvd 0x00000002).wf = false := by decide
theorem test_wf_accepts_reserved_word : (Instr.cmdRsvd 0x00000003).wf = true := by decide
theorem test_decode_rejects_read_with_data : decode (.bus 0b0000 1) = .error .readCarriesData := by rfl
theorem test_table_word_too_wide : decodeTableWord 5 0b100000 = none := by decide
theorem test_table_word_no_format : decodeTableWord 7 0 = none := by decide

/-! ### Decoding: words written out from R67, R69 and R71 -/

theorem test_decode_bus_reads :
    decodeTableWord 4 0b0000 = some .rdTs ∧ decodeTableWord 4 0b0001 = some .rdLat ∧
    decodeTableWord 4 0b0010 = some .rdLon ∧ decodeTableWord 4 0b0011 = some .rdAlt ∧
    decodeTableWord 4 0b0100 = some .rdCmd ∧ decodeTableWord 4 0b0101 = some .rdStatus ∧
    decodeTableWord 4 0b0110 = some .rdCsum ∧ decodeTableWord 4 0b0111 = some .rdRsvd7 := by decide
/-- DATA = 0x6553F100 above T. -/
theorem test_decode_bus_writes :
    decodeTableWord 36 0x6553F1008 = some (.wrTs 0x6553F100) ∧
    decodeTableWord 36 0x6553F1009 = some (.wrLat 0x6553F100) ∧
    decodeTableWord 36 0x6553F100A = some (.wrLon 0x6553F100) ∧
    decodeTableWord 36 0x6553F100B = some (.wrAlt 0x6553F100) ∧
    decodeTableWord 36 0x6553F100C = some (.wrCmd 0x6553F100) ∧
    decodeTableWord 36 0x6553F100D = some (.wrStatus 0x6553F100) ∧
    decodeTableWord 36 0x6553F100E = some (.wrCsum 0x6553F100) ∧
    decodeTableWord 36 0x6553F100F = some (.wrRsvd7 0x6553F100) := by decide
theorem test_decode_commands :
    decodeTableWord 32 0x00000000 = some .nop ∧ decodeTableWord 32 0x00000001 = some .start ∧
    decodeTableWord 32 0x00000002 = some .clearStatus ∧
    decodeTableWord 32 0x00000003 = some (.cmdRsvd 0x00000003) ∧
    decodeTableWord 32 0x00000101 = some (.cmdRsvd 0x00000101) := by decide
theorem test_decode_header_and_trailer :
    decodeTableWord 5 0b00000 = some .emitDelim ∧ decodeTableWord 5 0b00001 = some .emitLen ∧
    decodeTableWord 5 0b10010 = some .emitCsum := by decide
theorem test_decode_ts_lat_steps :
    decodeTableWord 5 0b00010 = some .emitTsB3 ∧ decodeTableWord 5 0b00011 = some .emitTsB2 ∧
    decodeTableWord 5 0b00100 = some .emitTsB1 ∧ decodeTableWord 5 0b00101 = some .emitTsB0 ∧
    decodeTableWord 5 0b00110 = some .emitLatB3 ∧ decodeTableWord 5 0b00111 = some .emitLatB2 ∧
    decodeTableWord 5 0b01000 = some .emitLatB1 ∧ decodeTableWord 5 0b01001 = some .emitLatB0 := by decide
theorem test_decode_lon_alt_steps :
    decodeTableWord 5 0b01010 = some .emitLonB3 ∧ decodeTableWord 5 0b01011 = some .emitLonB2 ∧
    decodeTableWord 5 0b01100 = some .emitLonB1 ∧ decodeTableWord 5 0b01101 = some .emitLonB0 ∧
    decodeTableWord 5 0b01110 = some .emitAltB3 ∧ decodeTableWord 5 0b01111 = some .emitAltB2 ∧
    decodeTableWord 5 0b10000 = some .emitAltB1 ∧ decodeTableWord 5 0b10001 = some .emitAltB0 := by decide
theorem test_decode_seq_invalid :
    decodeTableWord 5 0b10011 = some .seqInvalid19 ∧ decodeTableWord 5 0b10100 = some (.seqInvalid20 0) ∧
    decodeTableWord 5 0b10111 = some (.seqInvalid20 3) ∧ decodeTableWord 5 0b11000 = some (.seqInvalid24 0) ∧
    decodeTableWord 5 0b11111 = some (.seqInvalid24 7) := by decide
theorem test_decode_whole_byte :
    decodeTableWord 8 0x0D = some (.wrStatus 0) ∧ decodeTableWord 8 0x12 = some .emitCsum := by decide

/-! ### Fetch: a placed word runs as the first instruction after reset -/

theorem test_fetch_bus_words :
    ∀ w : Fin 16, (nextState? (step (State.reset.withFetchWord 4 w.val))).isSome = true := by decide
theorem test_fetch_seq_words :
    ∀ w : Fin 19, (nextState? (step (State.reset.withFetchWord 5 w.val))).isSome = true := by decide
theorem test_fetch_command_start :
    (nextState? (step (State.reset.withFetchWord 32 1))).map statusWord = some 0x00000001 := by decide

/-! ### The frame function: 95_test_vectors.md sections 2.1 and 2.2 -/

theorem test_frame_V1 : frame ⟨0x00000000, 0x00000000, 0x00000000, 0x00000000⟩ =
    [0x7E, 0x10, 0x00, 0x00, 0x00, 0x00, 0x00, 0x00, 0x00, 0x00, 0x00, 0x00, 0x00, 0x00, 0x00, 0x00, 0x00, 0x00, 0x00] := by decide
theorem test_frame_V2 : frame ⟨0x00000001, 0x00000000, 0x00000000, 0x00000000⟩ =
    [0x7E, 0x10, 0x00, 0x00, 0x00, 0x01, 0x00, 0x00, 0x00, 0x00, 0x00, 0x00, 0x00, 0x00, 0x00, 0x00, 0x00, 0x00, 0x01] := by decide
theorem test_frame_V3 : frame ⟨0xFFFFFFFF, 0x00000000, 0x00000000, 0x00000000⟩ =
    [0x7E, 0x10, 0xFF, 0xFF, 0xFF, 0xFF, 0x00, 0x00, 0x00, 0x00, 0x00, 0x00, 0x00, 0x00, 0x00, 0x00, 0x00, 0x00, 0xFC] := by decide
theorem test_frame_V4 : frame ⟨0xFFFFFFFF, 0xFFFFFFFF, 0xFFFFFFFF, 0xFFFFFFFF⟩ =
    [0x7E, 0x10, 0xFF, 0xFF, 0xFF, 0xFF, 0xFF, 0xFF, 0xFF, 0xFF, 0xFF, 0xFF, 0xFF, 0xFF, 0xFF, 0xFF, 0xFF, 0xFF, 0xF0] := by decide
theorem test_frame_V5 : frame ⟨0x7E7E7E7E, 0x00000000, 0x00000000, 0x00000000⟩ =
    [0x7E, 0x10, 0x7E, 0x7E, 0x7E, 0x7E, 0x00, 0x00, 0x00, 0x00, 0x00, 0x00, 0x00, 0x00, 0x00, 0x00, 0x00, 0x00, 0xF8] := by decide
theorem test_frame_V6 : frame ⟨0x80800000, 0x00000000, 0x00000000, 0x00000000⟩ =
    [0x7E, 0x10, 0x80, 0x80, 0x00, 0x00, 0x00, 0x00, 0x00, 0x00, 0x00, 0x00, 0x00, 0x00, 0x00, 0x00, 0x00, 0x00, 0x00] := by decide
theorem test_frame_V7 : frame ⟨0x01020304, 0x05060708, 0x090A0B0C, 0x0D0E0F10⟩ =
    [0x7E, 0x10, 0x01, 0x02, 0x03, 0x04, 0x05, 0x06, 0x07, 0x08, 0x09, 0x0A, 0x0B, 0x0C, 0x0D, 0x0E, 0x0F, 0x10, 0x88] := by decide
theorem test_frame_V8 : frame ⟨0x6553F100, 0xC2B40000, 0x43340000, 0x461C4000⟩ =
    [0x7E, 0x10, 0x65, 0x53, 0xF1, 0x00, 0xC2, 0xB4, 0x00, 0x00, 0x43, 0x34, 0x00, 0x00, 0x46, 0x1C, 0x40, 0x00, 0x38] := by decide
theorem test_frame_V9 : frame ⟨0x00000000, 0x42B40000, 0xC3340000, 0x00000000⟩ =
    [0x7E, 0x10, 0x00, 0x00, 0x00, 0x00, 0x42, 0xB4, 0x00, 0x00, 0xC3, 0x34, 0x00, 0x00, 0x00, 0x00, 0x00, 0x00, 0xED] := by decide
theorem test_frame_V10 : frame ⟨0x00000000, 0x7FC00001, 0x7F800001, 0xFF800000⟩ =
    [0x7E, 0x10, 0x00, 0x00, 0x00, 0x00, 0x7F, 0xC0, 0x00, 0x01, 0x7F, 0x80, 0x00, 0x01, 0xFF, 0x80, 0x00, 0x00, 0xBF] := by decide
theorem test_frame_V11 : frame ⟨0x00000001, 0x80000000, 0x00000001, 0x7F7FFFFF⟩ =
    [0x7E, 0x10, 0x00, 0x00, 0x00, 0x01, 0x80, 0x00, 0x00, 0x00, 0x00, 0x00, 0x00, 0x01, 0x7F, 0x7F, 0xFF, 0xFF, 0x7E] := by decide
theorem test_frame_V12 : frame ⟨0x00000000, 0x3F800000, 0xBF800000, 0xBF800000⟩ =
    [0x7E, 0x10, 0x00, 0x00, 0x00, 0x00, 0x3F, 0x80, 0x00, 0x00, 0xBF, 0x80, 0x00, 0x00, 0xBF, 0x80, 0x00, 0x00, 0x3D] := by decide
theorem test_frame_V13 : frame ⟨0x673148D0, 0x422DE3A3, 0xC2A116FD, 0x43A74000⟩ =
    [0x7E, 0x10, 0x67, 0x31, 0x48, 0xD0, 0x42, 0x2D, 0xE3, 0xA3, 0xC2, 0xA1, 0x16, 0xFD, 0x43, 0xA7, 0x40, 0x00, 0x45] := by decide
theorem test_frame_V14 : frame ⟨0x0000007E, 0x00000000, 0x00000000, 0x00000000⟩ =
    [0x7E, 0x10, 0x00, 0x00, 0x00, 0x7E, 0x00, 0x00, 0x00, 0x00, 0x00, 0x00, 0x00, 0x00, 0x00, 0x00, 0x00, 0x00, 0x7E] := by decide
theorem test_be32_U3 : be32 0x12345678 = [0x12, 0x34, 0x56, 0x78] := by decide
theorem test_be32_U5 : be32 0x80000000 = [0x80, 0, 0, 0] := by decide
theorem test_csum8_U7 : csum8 ([0xFF, 0x01] ++ List.replicate 14 0) = 0x00 := by decide
theorem test_csum8_U8 : csum8 ([0xFF, 0x02] ++ List.replicate 14 0) = 0x01 := by decide
theorem test_csum8_U11 : csum8 ([0x02, 0x01] ++ (payload recordV7).drop 2) = 0x88 := by decide
theorem test_unbe32_V10 : unbe32 0x7F 0xC0 0x00 0x01 = 0x7FC00001 := by decide
theorem test_decodeFrame_V7 : (decodeFrame (frame recordV7)).toOption = some recordV7 := by decide
theorem test_decodeFrame_bad_checksum :
    (decodeFrame ((frame recordV7).dropLast ++ [0x89])).toOption = none := by decide

/-! ### Host transactions: section 2.3, one step each -/

theorem test_rdTs_H2 : (after (.busRead 0) { State.reset with ts := 0xFFFFFFFF }).map State.returnedWords =
    some [0xFFFFFFFF] := by decide
theorem test_rdLat_H3 : (after (.busRead 1) { State.reset with lat := 0x7FC00001 }).map State.returnedWords =
    some [0x7FC00001] := by decide
theorem test_rdLon_H4 : (after (.busRead 2) { State.reset with lon := 0xC3340000 }).map State.returnedWords =
    some [0xC3340000] := by decide
theorem test_rdAlt_H5 : (after (.busRead 3) { State.reset with alt := 0x80000000 }).map State.returnedWords =
    some [0x80000000] := by decide
theorem test_rdCmd_H6 : (after (.busRead 4) (inFrame 0 0)).map (fun t => (t.returnedWords, statusWord t)) =
    some ([0x00000000], 0x00000001) := by decide
/-- R116's example: after 5 acceptances RD STATUS returns 0x00000501. -/
theorem test_rdStatus_R116 : (after (.busRead 5) (inFrame 5 0x06)).map State.returnedWords =
    some [0x00000501] := by decide
/-- P2: after 10 acceptances RD CSUM returns 0x24. -/
theorem test_rdCsum_P2 : (after (.busRead 6) (inFrame 10 0x24)).map State.returnedWords = some [0x00000024] := by decide
theorem test_rdRsvd7_H9 : (after (.busRead 7) State.reset).map (fun t => (t.returnedWords, statusWord t)) =
    some ([0x00000000], 0x00000000) := by decide
theorem test_wrTs_H23 : (after (.busWrite 0 0x00000002) (inFrame 5 0x06)).map (fun t => (t.ts, t.sts, statusWord t)) =
    some (0x00000002, 0x01020304, 0x00000501) := by decide
theorem test_wrLat_H3 : (after (.busWrite 1 0x7FC00001) State.reset).map (fun t => (t.lat, statusWord t)) =
    some (0x7FC00001, 0x00000000) := by decide
theorem test_wrLon_H4 : (after (.busWrite 2 0xC3340000) State.reset).map (fun t => (t.lon, statusWord t)) =
    some (0xC3340000, 0x00000000) := by decide
theorem test_wrAlt_H5 : (after (.busWrite 3 0x80000000) State.reset).map (fun t => (t.alt, statusWord t)) =
    some (0x80000000, 0x00000000) := by decide
theorem test_wrStatus_H10 : (after (.busWrite 5 0xFFFFFFFF) State.reset).map statusWord = some 0x00000010 := by decide
theorem test_wrStatus_H11 : (after (.busWrite 5 0x00000000) (inFrame 5 0x06)).map statusWord =
    some 0x00000511 := by decide
theorem test_wrCsum_H12 : (after (.busWrite 6 0x00000055) State.reset).map (fun t => (t.acc, statusWord t)) =
    some (0x00, 0x00000010) := by decide
theorem test_wrRsvd7_H13 : (after (.busWrite 7 0x00000001) State.reset).map statusWord = some 0x00000010 := by decide
theorem test_nop_H14 : (after (.busWrite 4 0x00000000) State.reset).map statusWord = some 0x00000000 := by decide
theorem test_start_H15 : (after (.busWrite 4 0x00000001) { State.reset with ts := 1 }).map
    (fun t => (t.shadow, t.txValid, t.txData, statusWord t)) =
    some (⟨1, 0, 0, 0⟩, true, some 0x7E, 0x00000001) := by decide
theorem test_start_H16 : (after (.busWrite 4 0x00000001) (inFrame 5 0x06)).map (fun t => (t.acc, statusWord t)) =
    some (0x06, 0x00000505) := by decide
/-- H17: idle with STATUS 0x0000000A. -/
theorem test_wrCmd_H17 : (after (.busWrite 4 0x00000001) { State.reset with done := true, errCmd := true }).map
    statusWord = some 0x00000009 := by decide
/-- H18: idle with STATUS 0x0000001E. -/
theorem test_clearStatus_H18 : (after (.busWrite 4 0x00000002)
    { State.reset with done := true, errBusy := true, errCmd := true, errAccess := true }).map statusWord =
    some 0x00000000 := by decide
theorem test_clearStatus_H19 : (after (.busWrite 4 0x00000002) { inFrame 7 0x0F with errBusy := true }).map
    statusWord = some 0x00000701 := by decide
theorem test_cmdRsvd_H21 : (after (.busWrite 4 0x00000101) State.reset).map statusWord = some 0x00000008 := by decide
theorem test_cmdRsvd_H22 : (after (.busWrite 4 0xFFFFFFFF) (inFrame 3 0x01)).map statusWord =
    some 0x00000309 := by decide

/-! ### The sequencer: the rows of section 2.4 S1, one acceptance each -/

theorem test_emitDelim_S1 : (after .sinkReady (inFrame 0 0x00)).map (fun t => (t.sent, t.acc, t.idx, statusWord t)) =
    some ([0x7E], 0x00, 1, 0x00000101) := by decide
theorem test_emitLen_S1 : (after .sinkReady (inFrame 1 0x00)).map (fun t => (t.sent, t.acc, t.idx, statusWord t)) =
    some ([0x10], 0x00, 2, 0x00000201) := by decide
theorem test_emitTsB3_S1 : (after .sinkReady (inFrame 2 0x00)).map (fun t => (t.sent, t.acc, t.idx, statusWord t)) =
    some ([0x01], 0x01, 3, 0x00000301) := by decide
theorem test_emitTsB2_S1 : (after .sinkReady (inFrame 3 0x01)).map (fun t => (t.sent, t.acc, t.idx, statusWord t)) =
    some ([0x02], 0x03, 4, 0x00000401) := by decide
theorem test_emitTsB1_S1 : (after .sinkReady (inFrame 4 0x03)).map (fun t => (t.sent, t.acc, t.idx, statusWord t)) =
    some ([0x03], 0x06, 5, 0x00000501) := by decide
theorem test_emitTsB0_S1 : (after .sinkReady (inFrame 5 0x06)).map (fun t => (t.sent, t.acc, t.idx, statusWord t)) =
    some ([0x04], 0x0A, 6, 0x00000601) := by decide
theorem test_emitLatB3_S1 : (after .sinkReady (inFrame 6 0x0A)).map (fun t => (t.sent, t.acc, t.idx, statusWord t)) =
    some ([0x05], 0x0F, 7, 0x00000701) := by decide
theorem test_emitLatB2_S1 : (after .sinkReady (inFrame 7 0x0F)).map (fun t => (t.sent, t.acc, t.idx, statusWord t)) =
    some ([0x06], 0x15, 8, 0x00000801) := by decide
theorem test_emitLatB1_S1 : (after .sinkReady (inFrame 8 0x15)).map (fun t => (t.sent, t.acc, t.idx, statusWord t)) =
    some ([0x07], 0x1C, 9, 0x00000901) := by decide
theorem test_emitLatB0_S1 : (after .sinkReady (inFrame 9 0x1C)).map (fun t => (t.sent, t.acc, t.idx, statusWord t)) =
    some ([0x08], 0x24, 10, 0x00000A01) := by decide
theorem test_emitLonB3_S1 : (after .sinkReady (inFrame 10 0x24)).map (fun t => (t.sent, t.acc, t.idx, statusWord t)) =
    some ([0x09], 0x2D, 11, 0x00000B01) := by decide
theorem test_emitLonB2_S1 : (after .sinkReady (inFrame 11 0x2D)).map (fun t => (t.sent, t.acc, t.idx, statusWord t)) =
    some ([0x0A], 0x37, 12, 0x00000C01) := by decide
theorem test_emitLonB1_S1 : (after .sinkReady (inFrame 12 0x37)).map (fun t => (t.sent, t.acc, t.idx, statusWord t)) =
    some ([0x0B], 0x42, 13, 0x00000D01) := by decide
theorem test_emitLonB0_S1 : (after .sinkReady (inFrame 13 0x42)).map (fun t => (t.sent, t.acc, t.idx, statusWord t)) =
    some ([0x0C], 0x4E, 14, 0x00000E01) := by decide
theorem test_emitAltB3_S1 : (after .sinkReady (inFrame 14 0x4E)).map (fun t => (t.sent, t.acc, t.idx, statusWord t)) =
    some ([0x0D], 0x5B, 15, 0x00000F01) := by decide
theorem test_emitAltB2_S1 : (after .sinkReady (inFrame 15 0x5B)).map (fun t => (t.sent, t.acc, t.idx, statusWord t)) =
    some ([0x0E], 0x69, 16, 0x00001001) := by decide
theorem test_emitAltB1_S1 : (after .sinkReady (inFrame 16 0x69)).map (fun t => (t.sent, t.acc, t.idx, statusWord t)) =
    some ([0x0F], 0x78, 17, 0x00001101) := by decide
theorem test_emitAltB0_S1 : (after .sinkReady (inFrame 17 0x78)).map (fun t => (t.sent, t.acc, t.idx, statusWord t)) =
    some ([0x10], 0x88, 18, 0x00001201) := by decide
theorem test_emitCsum_S1 : (after .sinkReady (inFrame 18 0x88)).map (fun t => (t.sent, t.acc, t.idx, statusWord t)) =
    some ([0x88], 0x88, 0, 0x00000002) := by decide
/-- S2: the sixteenth 0xFF takes ACC from 0xF1 to 0xF0. -/
theorem test_emitAltB0_S2 : (after .sinkReady { inFrame 17 0xF1 with salt := 0xFFFFFFFF }).map State.acc =
    some 0xF0 := by decide
/-- TX_LAST is 1 only while IDX = 18. -/
theorem test_txLast_S1 : (∀ i : Fin 18, (inFrame (BitVec.ofNat 5 i.val) 0).txLast = false) ∧
    (inFrame 18 0x88).txLast = true := by decide
/-- S5: forced to IDX = 19 the model faults and emits nothing. -/
theorem test_seqInvalid_S5 : step (withEvent .sinkReady (inFrame 19 0x00)) = .fault .seqInvalid := by rfl
/-- S6: no acceptance while idle, and TX_DATA is 0x00. -/
theorem test_idle_S6 : (after .sinkReady State.reset).map (fun t => (t.sent, t.txData)) =
    some ([], some 0x00) := by decide
/-- X1 and X3: STATUS 0x0000001E becomes 0, and the record registers too. -/
theorem test_reset_X3 : (after .reset
    { inFrame 0 0x88 with busy := false, done := true, errBusy := true, errCmd := true, errAccess := true }).map
    (fun t => (statusWord t, csumWord t, t.record, t.txValid)) =
    some (0x00000000, 0x00000000, ⟨0, 0, 0, 0⟩, false) := by decide

/-! ### Witnesses: a concrete state and operands that meet each statement's hypotheses -/

theorem witness_RecordReadsReturnTheRegister :
    (∃ t, exec (.wrTs 0xFFFFFFFF) State.reset = .next t) ∧ (∃ t, exec (.wrLat 1) State.reset = .next t) ∧
    (∃ t, exec (.wrLon 1) State.reset = .next t) ∧ (∃ t, exec (.wrAlt 1) State.reset = .next t) :=
  ⟨⟨_, rfl⟩, ⟨_, rfl⟩, ⟨_, rfl⟩, ⟨_, rfl⟩⟩
theorem witness_StatusReadReturnsTheStatusWord : State.reset.Inv ∧ State.reset.busy = false := by decide

/-- A reachable idle state, and a reachable state with a frame in progress. -/
theorem witness_Reachable_idle : Reachable State.reset := Reachable.afterReset [] 0
/-- The state after a START from reset. -/
def started : State := latchRecord State.reset
theorem witness_Reachable_busy : Reachable started ∧ started.busy = true :=
  ⟨.afterStep (.afterReset [[.busWrite 4 1]] 0) rfl, rfl⟩
/-- One step from a reachable state, with one event pending, reaches the next state. -/
theorem reachable_step (e : Event) (s t : State) (h : Reachable s)
    (hs : step (withEvent e s) = .next t) : Reachable t :=
  .afterStep (.agentsAct [[e]] s.choices h) hs

theorem witness_ChecksumReadReturnsTheAccumulator :
    (Reachable started ∧ started.busy = true) ∧ (Reachable State.reset ∧ State.reset.busy = false) :=
  ⟨witness_Reachable_busy, witness_Reachable_idle, rfl⟩
theorem witness_ReadsHaveNoSideEffect :
    { State.reset with pending := [[.busRead 7], [.busRead 7], [.reset]] }.pending =
      [.busRead 7] :: [.busRead 7] :: [[.reset]] := rfl
theorem witness_CommandWriteRunsTheDecodedCommand :
    (0x00000003 : Word) ≠ 0x00000000 ∧ (0x00000003 : Word) ≠ 0x00000001 ∧ (0x00000003 : Word) ≠ 0x00000002 := by decide
theorem witness_StartLatchesTheRecordOrIsRefused : State.reset.busy = false ∧ (inFrame 5 0x06).busy = true := by decide
theorem witness_ReservedCommandRaisesErrCmd :
    ((0x00000003 : Word) ≠ 0 ∧ (0x00000003 : Word) ≠ 1 ∧ (0x00000003 : Word) ≠ 2) ∧
    ((0xFFFFFFFF : Word) ≠ 0 ∧ (0xFFFFFFFF : Word) ≠ 1 ∧ (0xFFFFFFFF : Word) ≠ 2) := by decide
theorem witness_HeaderStepsEmitDelimiterAndLength :
    ((inFrame 0 0).busy = true ∧ (inFrame 0 0).idx = 0 ∧ (inFrame 0 0).Inv) ∧
    ((inFrame 1 0).busy = true ∧ (inFrame 1 0).idx = 1 ∧ (inFrame 1 0).Inv) := by decide
/-- Every payload index has a state of a real frame, which meets R29. -/
theorem witness_TimestampAndLatitudeStepsEmitAndAccumulate : ∀ k : Fin 8,
    ∃ acc, (inFrame (BitVec.ofNat 5 (k.val + 2)) acc).busy = true ∧
      (inFrame (BitVec.ofNat 5 (k.val + 2)) acc).Inv := fun k =>
  ⟨csum8 ((payload recordV7).take k.val), rfl, by revert k; decide⟩
theorem witness_LongitudeAndAltitudeStepsEmitAndAccumulate : ∀ k : Fin 8,
    ∃ acc, (inFrame (BitVec.ofNat 5 (k.val + 10)) acc).busy = true ∧
      (inFrame (BitVec.ofNat 5 (k.val + 10)) acc).Inv := fun k =>
  ⟨csum8 ((payload recordV7).take (k.val + 8)), rfl, by revert k; decide⟩
theorem witness_ChecksumStepEndsTheFrame : (inFrame 18 0x88).busy = true ∧ (inFrame 18 0x88).idx = 18 := by decide
theorem witness_InvalidIndexFaultsAndIsUnreachable :
    (19 ≤ (19 : BitVec 5).toNat ∧ 19 ≤ (31 : BitVec 5).toNat) ∧ Reachable started :=
  ⟨by decide, witness_Reachable_busy.1⟩
theorem witness_SinkAcceptTransfersTheOfferedByte :
    ∀ i ∈ [(0 : BitVec 5), 1, 2, 17, 18], (withEvent .sinkReady (inFrame i 0)).busy = true ∧
      (withEvent .sinkReady (inFrame i 0)).idx.toNat ≤ 18 ∧
      (withEvent .sinkReady (inFrame i 0)).pending = [.sinkReady] :: [] := by decide
theorem witness_NoByteLeavesWhileIdle :
    (withEvent .sinkReady State.reset).busy = false ∧
    (withEvent .sinkReady State.reset).pending = [.sinkReady] :: [] ∧
    ∃ t, step (withEvent .sinkReady State.reset) = .next t := ⟨rfl, rfl, _, rfl⟩
theorem witness_EmitStepsAreRefusedWhileIdle :
    (0 : BitVec 5).toNat ≤ 18 ∧ (18 : BitVec 5).toNat ≤ 18 ∧ State.reset.busy = false := by decide
theorem witness_FinishedRunsSendNothing :
    State.reset.finished = true ∧ { State.reset with pending := [[.sinkReady, .reset]] }.finished = true := by decide

/-- What the statements about one event need: an event taken and a step that answers a next state. -/
def Happens (e : Event) (s : State) (p : State → State → Prop) : Prop :=
  ∃ s' t, fetch (withEvent e s) = some (e, s') ∧ step (withEvent e s) = .next t ∧ p (withEvent e s) t

theorem witness_BusyAndDoneChangeOnlyAsStated :
    Happens (.busWrite 4 1) { State.reset with done := true }
      (fun s t => s.busy = false ∧ t.busy = true ∧ s.done = true ∧ t.done = false) ∧
    Happens .sinkReady (inFrame 18 0x88) (fun s t => s.busy = true ∧ t.busy = false ∧ s.idx = 18 ∧
      s.done = false ∧ t.done = true) ∧
    Happens (.busWrite 4 2) { State.reset with done := true } (fun s t => s.done = true ∧ t.done = false) ∧
    Happens .reset (inFrame 5 0x06) (fun s t => s.busy = true ∧ t.busy = false) :=
  ⟨⟨_, _, rfl, rfl, by decide⟩, ⟨_, _, rfl, rfl, by decide⟩, ⟨_, _, rfl, rfl, by decide⟩, ⟨_, _, rfl, rfl, by decide⟩⟩
/-- A state after a whole frame: DONE = 1 is reachable. -/
theorem witness_Reachable_done : ∃ s, Reachable s ∧ s.done = true := by
  have run : ∀ (n : Nat) (s t : State), Reachable s →
      Nat.rec (motive := fun _ => Option State) (some s)
        (fun _ o => o.bind fun u => nextState? (step (withEvent .sinkReady u))) n = some t → Reachable t := by
    intro n
    induction n with
    | zero => intro s t h he; cases he; exact h
    | succ n ih =>
      intro s t h he
      obtain ⟨u, hu, hs⟩ := Option.bind_eq_some_iff.mp he
      refine reachable_step .sinkReady u t (ih s u h hu) ?_
      cases ht : step (withEvent .sinkReady u) with
      | next v => rw [ht] at hs; cases hs; rfl
      | fault f => rw [ht] at hs; cases hs
      | refused r => rw [ht] at hs; cases hs
  exact ⟨_, run 19 started _ witness_Reachable_busy.1 rfl, rfl⟩
theorem witness_ErrorBitsChangeOnlyAsStated :
    Happens (.busWrite 4 1) (inFrame 0 0) (fun s t => s.busy = true ∧ s.errBusy = false ∧ t.errBusy = true) ∧
    Happens (.busWrite 4 3) State.reset (fun s t => s.errCmd = false ∧ t.errCmd = true) ∧
    Happens (.busWrite 5 0) State.reset (fun s t => s.errAccess = false ∧ t.errAccess = true) ∧
    Happens (.busWrite 7 0) State.reset (fun s t => s.errAccess = false ∧ t.errAccess = true) ∧
    Happens (.busWrite 4 2) { State.reset with errBusy := true, errCmd := true, errAccess := true }
      (fun s t => s.errBusy = true ∧ t.errBusy = false ∧ s.errCmd = true ∧ t.errCmd = false ∧
        s.errAccess = true ∧ t.errAccess = false) ∧
    Happens .reset { State.reset with errBusy := true } (fun s t => s.errBusy = true ∧ t.errBusy = false) :=
  ⟨⟨_, _, rfl, rfl, by decide⟩, ⟨_, _, rfl, rfl, by decide⟩, ⟨_, _, rfl, rfl, by decide⟩,
    ⟨_, _, rfl, rfl, by decide⟩, ⟨_, _, rfl, rfl, by decide⟩, ⟨_, _, rfl, rfl, by decide⟩⟩
theorem witness_AccumulatorChangesAtThreePoints :
    Happens (.busWrite 4 1) { State.reset with acc := 0x88 } (fun s t => s.busy = false ∧ t.acc ≠ s.acc) ∧
    Happens .reset (inFrame 18 0x88) (fun s t => t.acc ≠ s.acc) ∧
    Happens .sinkReady (inFrame 2 0) (fun s t => s.busy = true ∧ s.idx.toNat = 2 ∧ t.acc ≠ s.acc) ∧
    Happens .sinkReady (inFrame 17 0x78) (fun s t => s.busy = true ∧ s.idx.toNat = 17 ∧ t.acc ≠ s.acc) :=
  ⟨⟨_, _, rfl, rfl, by decide⟩, ⟨_, _, rfl, rfl, by decide⟩, ⟨_, _, rfl, rfl, by decide⟩, ⟨_, _, rfl, rfl, by decide⟩⟩
theorem witness_IndexCountsAcceptances :
    Happens (.busWrite 4 1) State.reset (fun s _ => s.busy = false) ∧
    Happens .sinkReady (inFrame 0 0) (fun s t => s.busy = true ∧ s.idx.toNat < 18 ∧ t.idx ≠ s.idx) ∧
    Happens .sinkReady (inFrame 17 0) (fun s t => s.busy = true ∧ s.idx.toNat < 18 ∧ t.idx ≠ s.idx) ∧
    Happens .sinkReady (inFrame 18 0) (fun s t => s.busy = true ∧ s.idx = 18 ∧ t.idx ≠ s.idx) ∧
    Happens .reset (inFrame 18 0) (fun s t => t.idx ≠ s.idx) :=
  ⟨⟨_, _, rfl, rfl, by decide⟩, ⟨_, _, rfl, rfl, by decide⟩, ⟨_, _, rfl, rfl, by decide⟩,
    ⟨_, _, rfl, rfl, by decide⟩, ⟨_, _, rfl, rfl, by decide⟩⟩
theorem witness_ShadowIsWrittenOnlyByStartAndReset :
    Happens (.busWrite 4 1) { State.reset with ts := 1 } (fun s _ => s.busy = false) ∧
    Happens .reset (inFrame 5 0x06) (fun s t => t.shadow ≠ s.shadow) ∧
    Happens (.busWrite 0 7) (inFrame 5 0x06) (fun s t => t.shadow = s.shadow) :=
  ⟨⟨_, _, rfl, rfl, by decide⟩, ⟨_, _, rfl, rfl, by decide⟩, ⟨_, _, rfl, rfl, by decide⟩⟩
theorem witness_RecordRegistersAreWrittenOnlyByTheirWrite :
    Happens (.busWrite 0 7) State.reset (fun s t => t.ts ≠ s.ts) ∧
    Happens (.busWrite 1 7) State.reset (fun s t => t.lat ≠ s.lat) ∧
    Happens (.busWrite 2 7) State.reset (fun s t => t.lon ≠ s.lon) ∧
    Happens (.busWrite 3 7) State.reset (fun s t => t.alt ≠ s.alt) ∧
    Happens .reset (inFrame 5 0x06) (fun s t => t.ts ≠ s.ts) :=
  ⟨⟨_, _, rfl, rfl, by decide⟩, ⟨_, _, rfl, rfl, by decide⟩, ⟨_, _, rfl, rfl, by decide⟩,
    ⟨_, _, rfl, rfl, by decide⟩, ⟨_, _, rfl, rfl, by decide⟩⟩
theorem witness_ErrorsHaveNoOtherEffect :
    raisesError true 4 1 = true ∧ raisesError false 4 3 = true ∧ raisesError false 4 0xFFFFFFFF = true ∧
    raisesError false 5 0 = true ∧ raisesError false 6 0 = true ∧ raisesError false 7 0 = true := by decide
/-- E4: a write to STATUS and a reserved command. -/
theorem witness_ErrorOrderDoesNotMatter :
    raisesError State.reset.busy 5 0 = true ∧ raisesError State.reset.busy 4 3 = true := by decide
theorem witness_PayloadIsBigEndianByField : 0 < 4 ∧ 3 < 4 := by decide
theorem witness_EveryStepKeepsTheInvariant :
    (withEvent .sinkReady (inFrame 17 0x78)).Inv ∧ ∃ t, step (withEvent .sinkReady (inFrame 17 0x78)) = .next t :=
  ⟨by decide, _, rfl⟩
theorem witness_ReachableStatesMeetTheInvariant : Reachable started := witness_Reachable_busy.1
theorem witness_NoReachableStepStops : State.Inv (inFrame 18 0x88) ∧ Reachable started :=
  ⟨by decide, witness_Reachable_busy.1⟩
/-- Moments with 18 acceptances: in most a host event at the same moment, one refused START among them. -/
def busyMoments : List Moment :=
  [[.busWrite 4 1]] ++ List.replicate 17 [.sinkReady, .busRead 5] ++ [[.busWrite 0 9, .busRead 6], [.sinkReady]]
theorem witness_FrameLaw : State.reset.busy = false ∧ noReset busyMoments ∧ acceptances busyMoments = 18 ∧
    { State.reset with pending := [Event.busWrite 4 0x00000001] :: (busyMoments ++ [Event.sinkReady] :: [[Event.reset]]) }.pending =
      [Event.busWrite 4 0x00000001] :: (busyMoments ++ [Event.sinkReady] :: [[Event.reset]]) := by
  refine ⟨rfl, by decide, by decide, rfl⟩
theorem witness_ResetStateSendsTheZeroFrame : noReset busyMoments ∧ acceptances busyMoments = 18 := by
  refine ⟨by decide, by decide⟩
theorem witness_BytesGoOutInFrameOrder :
    (inFrame 2 0).Inv ∧ (inFrame 2 0).busy = true ∧ noReset [[.sinkReady, .busWrite 0 7], [.busRead 5]] ∧
    (inFrame 2 0).idx.toNat + acceptances [[.sinkReady, .busWrite 0 7], [.busRead 5]] ≤ 18 ∧
    { inFrame 2 0 with pending := [[.sinkReady, .busWrite 0 7], [.busRead 5]] }.Inv := by decide
theorem witness_StalledFrameKeepsItsOffer :
    (inFrame 0 0).busy = true ∧ noReset [[.busRead 5], [.busWrite 4 1]] ∧
    acceptances [[.busRead 5], [.busWrite 4 1]] = 0 := by decide
theorem witness_FrameBytesDependOnlyOnTheShadow :
    (inFrame 5 0x06).Inv ∧ { inFrame 5 0x06 with ts := 9, errCmd := true }.Inv ∧
    (inFrame 5 0x06).shadow = { inFrame 5 0x06 with ts := 9, errCmd := true }.shadow ∧
    noReset [[.sinkReady]] ∧ noReset [[.busWrite 1 3, .sinkReady]] ∧
    acceptances [[.sinkReady]] = acceptances [[.busWrite 1 3, .sinkReady]] ∧
    (inFrame 5 0x06).idx.toNat + acceptances [[.sinkReady]] ≤ 18 := by decide
theorem witness_EveryGroupSentIsAFramePrefix :
    Reachable started ∧ started.busy = true ∧ (started.Inv ∧ started.SentByFrames) ∧ ∃ t, step started = .next t :=
  ⟨witness_Reachable_busy.1, rfl, ⟨by decide, ⟨fun g h => ⟨⟨0, 0, 0, 0⟩, by
    rw [List.mem_singleton.mp h]; exact List.nil_prefix⟩, fun _ => rfl, rfl⟩⟩, _, rfl⟩
theorem witness_StepRunsTheDecodedInstruction :
    decode (.bus 0x8 5) = .ok (.wrTs 5) ∧ (withEvent (busEvent 0x8 5) State.reset).pending = [busEvent 0x8 5] :: [] ∧
    decode (.seq (inFrame 18 0x88).idx) = .ok .emitCsum ∧ (inFrame 18 0x88).busy = true ∧
    (withEvent .reset State.reset).pending = [.reset] :: [] := ⟨rfl, rfl, rfl, rfl, rfl⟩
theorem witness_FetchWordRunsNext :
    decodeTableWord 36 0x0000000058 = some (.wrTs 5) ∧ decodeTableWord 32 1 = some .start ∧
    decodeTableWord 5 18 = some .emitCsum := by decide
theorem witness_NoEventNoChange :
    (∀ m ∈ State.reset.pending, m = []) ∧ ∀ m ∈ { State.reset with pending := [[], []] }.pending, m = [] := by decide
theorem witness_SimultaneousEventsTakeASerialOrder :
    2 ≤ [Event.sinkReady, Event.reset].length ∧
    { inFrame 4 0x03 with pending := [[.sinkReady, .reset]] }.pending = [.sinkReady, .reset] :: [] := by decide
/-- E1. -/
theorem witness_StartAgainstTheLastByte :
    (inFrame 18 0x88).busy = true ∧ (inFrame 18 0x88).idx = 18 ∧ (inFrame 18 0x88).errBusy = false := by decide
/-- E2. -/
theorem witness_ClearAgainstTheLastByte : (inFrame 18 0x88).busy = true ∧ (inFrame 18 0x88).idx = 18 := by decide
theorem witness_ResetClearsEveryRegister : (withEvent .reset (inFrame 7 0x0F)).pending = [.reset] :: [] := rfl
theorem witness_DecodeOfEncode : (Instr.cmdRsvd 0x00000003).wf = true ∧ (Instr.wrAlt 0xFFFFFFFF).wf = true := by decide
theorem witness_EncodeOfDecode :
    decode (.cmd 0x00000003) = .ok (.cmdRsvd 3) ∧ decode (.seq 31) = .ok (.seqInvalid24 7) := ⟨rfl, rfl⟩
theorem witness_InstancesShareNoState :
    (∃ q, Platform.step 1 (Platform.reset 2) = .next q) ∧ 0 ≠ 1 ∧ (Platform.reset 2).instances[1]? = some State.reset ∧
    State.reset ∈ (Platform.reset 2).instances ∧ ∀ s ∈ (Platform.reset 2).instances, Reachable s :=
  ⟨⟨_, rfl⟩, by decide, rfl, by decide, fun s h => by
    rw [List.eq_of_mem_replicate h]; exact witness_Reachable_idle⟩
/-- E3: RD CSUM against accept 5 of V7. -/
theorem witness_ReadAgainstAnAcceptance :
    (inFrame 4 0x03).busy = true ∧ (inFrame 4 0x03).idx.toNat ≤ 18 ∧
    { inFrame 4 0x03 with pending := [[.busRead 6, .sinkReady]] }.pending = [.busRead 6, .sinkReady] :: [] := by decide
/-- The clause of an event that is no write to the register: a write to another, and a read. -/
theorem witness_RecordReadsReturnTheRegister_kept :
    Happens (.busWrite 1 7) (inFrame 5 0x06) (fun s t => t.ts = s.ts ∧ t.lat ≠ s.lat) ∧
    Happens (.busRead 0) (inFrame 5 0x06) (fun s t => t.ts = s.ts) ∧
    (∀ v, Event.busWrite 1 7 ≠ .busWrite 0 v) ∧ Event.busWrite 1 7 ≠ .reset :=
  ⟨⟨_, _, rfl, rfl, by decide⟩, ⟨_, _, rfl, rfl, by decide⟩, by intro v h; injection h with h; exact absurd h (by decide),
    by decide⟩
theorem witness_RecordWritesStoreTheWholeWord : State.reset.busy = false := rfl
theorem witness_NopAndClearStatus : (inFrame 18 0x88).busy = true ∧ (inFrame 18 0x88).idx = 18 := by decide
theorem witness_SinkAcceptTransfersTheOfferedByte_invalid :
    (withEvent .sinkReady (inFrame 19 0)).busy = true ∧ 19 ≤ (withEvent .sinkReady (inFrame 19 0)).idx.toNat ∧
    (withEvent .sinkReady (inFrame 19 0)).pending = [.sinkReady] :: [] := by decide
/-- The clause of what stays after a frame: a read, while idle. -/
theorem witness_ChecksumStepEndsTheFrame_kept :
    Happens (.busRead 6) { State.reset with acc := 0x88, done := true } (fun s t => s.busy = false ∧ t.acc = 0x88) ∧
    (inFrame 18 0x88).Inv ∧ Event.busRead 6 ≠ .busWrite 4 0x00000001 ∧ Event.busRead 6 ≠ .reset :=
  ⟨⟨_, _, rfl, rfl, by decide⟩, by decide, by decide, by decide⟩
theorem witness_ResetClearsEveryRegister_others :
    Happens (.busWrite 3 7) (inFrame 5 0x06) (fun s t => t.record ≠ s.record) ∧
    Happens .sinkReady (inFrame 18 0x88) (fun s t => s.busy = true ∧ t.busy = false) ∧ Event.busWrite 3 7 ≠ .reset :=
  ⟨⟨_, _, rfl, rfl, by decide⟩, ⟨_, _, rfl, rfl, by decide⟩, by decide⟩
theorem witness_FrameRoundTrip : frame recordV7 = frame recordV7 := rfl
theorem witness_SerializerIsABijection : be32 0x12345678 = be32 0x12345678 := rfl

end Sys2Proof.Machine.Tests
end

section
/-! The scope family (00_scope.md): the block takes no step of its own. -/

namespace Sys2Proof.Machine

/-- Settles O51: moments that are all empty hold no event, so `fetch` finds nothing to take. -/
theorem noEventNoChange : Obligations.NoEventNoChange := by
  intro s hempty
  have hnone : fetch s = none := (fetch_none_iff s).mpr (List.flatten_eq_nil_iff.mpr hempty)
  exact step_of_none hnone

end Sys2Proof.Machine
end

section
/-! The state family (10_state.md), support: what an event can do, as a relation with a named case for each, and the
equations of the events that a rule names. -/

namespace Sys2Proof.Machine

/-! ### The two records and the bytes sent, after each operation -/

@[simp] theorem returnWord_shadow (w : Word) (s : State) : (returnWord w s).shadow = s.shadow := rfl
@[simp] theorem raise_shadow (b : ErrorBit) (s : State) : (raise b s).shadow = s.shadow := by cases b <;> rfl
@[simp] theorem writeRecord_shadow (r : RecordReg) (v : Word) (s : State) : (writeRecord r v s).shadow = s.shadow := by
  cases r <;> rfl
@[simp] theorem clearSticky_shadow (s : State) : (clearSticky s).shadow = s.shadow := rfl
@[simp] theorem latchRecord_shadow (s : State) : (latchRecord s).shadow = s.record := rfl
@[simp] theorem resetEvent_shadow (s : State) : (resetEvent s).shadow = ⟨0, 0, 0, 0⟩ := rfl
@[simp] theorem emitHeader_shadow (b : Byte) (i : BitVec 5) (s : State) : (emitHeader b i s).shadow = s.shadow := rfl
@[simp] theorem emitPayload_shadow (b : Byte) (i : BitVec 5) (s : State) : (emitPayload b i s).shadow = s.shadow := rfl
@[simp] theorem emitTrailer_shadow (s : State) : (emitTrailer s).shadow = s.shadow := rfl

@[simp] theorem latchRecord_sent (s : State) : (latchRecord s).sent = s.sent := by simp [State.sent, Obs.byte?]
@[simp] theorem emitHeader_sent (b : Byte) (i : BitVec 5) (s : State) : (emitHeader b i s).sent = s.sent ++ [b] := by
  simp [State.sent, Obs.byte?]
@[simp] theorem emitPayload_sent (b : Byte) (i : BitVec 5) (s : State) : (emitPayload b i s).sent = s.sent ++ [b] := by
  simp [State.sent, Obs.byte?]
@[simp] theorem emitTrailer_sent (s : State) : (emitTrailer s).sent = s.sent ++ [s.acc] := by simp [State.sent, Obs.byte?]

/-! ### Record registers and error bits by name -/

/-- The word address of a record register (10_state.md R11 to R14). -/
def RecordReg.wa : RecordReg → BitVec 3
  | .ts => 0
  | .lat => 1
  | .lon => 2
  | .alt => 3

theorem readRecord_writeRecord (r r' : RecordReg) (v : Word) (s : State) :
    readRecord r (writeRecord r' v s) = if r' = r then v else readRecord r s := by
  cases r <;> cases r' <;> rfl

/-- The sticky bit that `raise` sets. -/
def State.errorBit (s : State) : ErrorBit → Bool
  | .busy => s.errBusy
  | .cmd => s.errCmd
  | .access => s.errAccess

@[simp] theorem raise_errorBit (b b' : ErrorBit) (s : State) :
    (raise b s).errorBit b' = (s.errorBit b' || b == b') := by
  cases b' <;> simp [State.errorBit]

/-- What raises each error bit, the complete list of 60_exceptions.md R181. -/
def ErrorBit.Cause (s : State) (e : Event) : ErrorBit → Prop
  | .busy => e = .busWrite 4 1 ∧ s.busy = true
  | .cmd => ∃ v : Word, e = .busWrite 4 v ∧ v ≠ 0 ∧ v ≠ 1 ∧ v ≠ 2
  | .access => ∃ (wa : BitVec 3) (v : Word), e = .busWrite wa v ∧ (wa = 5 ∨ wa = 6 ∨ wa = 7)

/-! ### The events that a rule names -/

theorem perform_writeRecord (r : RecordReg) (v : Word) (s : State) :
    perform (.busWrite r.wa v) s = .next (writeRecord r v s) := by
  cases r <;> rfl

theorem perform_start_idle (s : State) (hb : s.busy = false) : perform (.busWrite 4 1) s = .next (latchRecord s) := by
  show Host.Outcome.next (startFrame s) = _
  rw [startFrame, hb]; rfl

theorem perform_clearStatus (s : State) : perform (.busWrite 4 2) s = .next (clearSticky s) := rfl

/-- An error's cause sets its bit and does nothing else (60_exceptions.md R180). -/
theorem perform_of_cause {b : ErrorBit} {s : State} {e : Event} (h : b.Cause s e) :
    perform e s = .next (raise b s) := by
  cases b with
  | busy =>
    obtain ⟨rfl, hb⟩ := h
    show Host.Outcome.next (startFrame s) = _
    rw [startFrame, hb]; rfl
  | cmd =>
    obtain ⟨v, rfl, h0, h1, h2⟩ := h
    show Host.Outcome.next (runCommand v s) = _
    rw [runCommand, if_neg h0, if_neg h1, if_neg h2]
  | access =>
    obtain ⟨wa, v, rfl, rfl | rfl | rfl⟩ := h <;> rfl

/-- An acceptance below byte 18 sends the byte offered and moves IDX on; the frame goes on (R141). -/
theorem perform_sinkReady_of_lt (s : State) (hb : s.busy = true) (hlt : s.idx.toNat < 18) :
    ∃ b t, frameByte s.shadow s.acc s.idx.toNat = some b ∧ perform .sinkReady s = .next t ∧
      t.busy = true ∧ t.idx.toNat = s.idx.toNat + 1 ∧ t.shadow = s.shadow ∧ t.sent = s.sent ++ [b] ∧
      t.pending = s.pending := by
  have hne : s.idx ≠ 18 := fun h => by rw [h] at hlt; exact absurd hlt (by decide)
  obtain ⟨b, t, hbyte, ht, ⟨-, rfl⟩ | ⟨-, -, -, rfl⟩ | ⟨h18, -, -⟩⟩ := perform_sinkReady s hb hlt.le
  · exact ⟨b, _, hbyte, ht, hb, index_succ _ hlt, rfl, by simp, rfl⟩
  · exact ⟨b, _, hbyte, ht, hb, index_succ _ hlt, rfl, by simp, rfl⟩
  · exact absurd h18 hne

/-! ### The effects of an event -/

/-- `Effect s e t`: event `e` takes state `s` to `t`. One case for each row of the rules. -/
inductive Effect (s : State) : Event → State → Prop where
  | read (wa : BitVec 3) (w : Word) : Effect s (.busRead wa) (returnWord w s)
  | record (r : RecordReg) (v : Word) : Effect s (.busWrite r.wa v) (writeRecord r v s)
  | nop : Effect s (.busWrite 4 0) s
  | startAccepted (hb : s.busy = false) : Effect s (.busWrite 4 1) (latchRecord s)
  | clear : Effect s (.busWrite 4 2) (clearSticky s)
  | error (b : ErrorBit) (e : Event) (hc : b.Cause s e) : Effect s e (raise b s)
  | reset : Effect s .reset (resetEvent s)
  | idleSink (hb : s.busy = false) : Effect s .sinkReady s
  | header (b : Byte) (hb : s.busy = true) (hi : s.idx.toNat ≤ 1) : Effect s .sinkReady (emitHeader b (s.idx + 1) s)
  | payload (b : Byte) (hb : s.busy = true) (h2 : 2 ≤ s.idx.toNat) (h17 : s.idx.toNat ≤ 17)
      (hp : (Sys2Proof.payload s.shadow)[s.idx.toNat - 2]? = some b) :
      Effect s .sinkReady (emitPayload b (s.idx + 1) s)
  | trailer (hb : s.busy = true) (h18 : s.idx = 18) : Effect s .sinkReady (emitTrailer s)

/-- The relation holds of every event that does not stop. -/
theorem effect_of_perform {e : Event} {s t : State} (h : perform e s = .next t) : Effect s e t := by
  rcases perform_cases h with ⟨wa, w, rfl, rfl⟩ | ⟨v, rfl, rfl⟩ | ⟨v, rfl, rfl⟩ | ⟨v, rfl, rfl⟩ | ⟨v, rfl, rfl⟩ |
    ⟨rfl, rfl⟩ | ⟨rfl, hb, rfl⟩ | ⟨rfl, hb, rfl⟩ | ⟨rfl, rfl⟩ | ⟨v, rfl, hv0, hv1, hv2, rfl⟩ | ⟨wa, v, rfl, hw, rfl⟩ |
    ⟨rfl, rfl⟩ | ⟨rfl, hb, rfl⟩ | ⟨rfl, hb, hi, b, -, rfl⟩ | ⟨rfl, hb, h2, h17, b, -, hp, rfl⟩ | ⟨rfl, hb, h18, rfl⟩
  · exact .read wa w
  · exact .record .ts v
  · exact .record .lat v
  · exact .record .lon v
  · exact .record .alt v
  · exact .nop
  · exact .startAccepted hb
  · exact .error .busy _ ⟨rfl, hb⟩
  · exact .clear
  · exact .error .cmd _ ⟨v, rfl, hv0, hv1, hv2⟩
  · exact .error .access _ ⟨wa, v, rfl, hw⟩
  · exact .reset
  · exact .idleSink hb
  · exact .header b hb hi
  · exact .payload b hb h2 h17 hp
  · exact .trailer hb h18

/-- A step with an event to take performs it, on the state with other pending events and another count of choices. -/
theorem perform_of_step {s s' t : State} {e : Event} (hf : fetch s = some (e, s')) (ht : step s = .next t) :
    ∃ p c, perform e { s with pending := p, choices := c } = .next t := by
  obtain ⟨p, c, rfl, -⟩ := fetch_cases hf
  exact ⟨p, c, (step_of_fetch hf).symm.trans ht⟩

/-! ### Which event writes which register -/

section
variable {s t : State} {e : Event}

/-- R18. -/
theorem Effect.busy_cases (h : Effect s e t) : t.busy = s.busy ∨
    (e = .busWrite 4 1 ∧ s.busy = false ∧ t.busy = true) ∨
    (e = .sinkReady ∧ s.busy = true ∧ s.idx = 18 ∧ t.busy = false) ∨ (e = .reset ∧ t.busy = false) := by
  cases h with
  | startAccepted hb => exact .inr (.inl ⟨rfl, hb, rfl⟩)
  | trailer hb h18 => exact .inr (.inr (.inl ⟨rfl, hb, h18, rfl⟩))
  | reset => exact .inr (.inr (.inr ⟨rfl, rfl⟩))
  | _ => exact .inl (by simp)

/-- R19. -/
theorem Effect.done_cases (h : Effect s e t) : t.done = s.done ∨
    (e = .sinkReady ∧ s.busy = true ∧ s.idx = 18 ∧ t.done = true) ∨
    (((e = .busWrite 4 1 ∧ s.busy = false) ∨ e = .busWrite 4 2 ∨ e = .reset) ∧ t.done = false) := by
  cases h with
  | startAccepted hb => exact .inr (.inr ⟨.inl ⟨rfl, hb⟩, rfl⟩)
  | clear => exact .inr (.inr ⟨.inr (.inl rfl), rfl⟩)
  | reset => exact .inr (.inr ⟨.inr (.inr rfl), rfl⟩)
  | trailer hb h18 => exact .inr (.inl ⟨rfl, hb, h18, rfl⟩)
  | _ => exact .inl (by simp)

/-- R20 to R22, for each of the three bits. -/
theorem Effect.errorBit_cases (h : Effect s e t) (b : ErrorBit) : t.errorBit b = s.errorBit b ∨
    (b.Cause s e ∧ t.errorBit b = true) ∨ ((e = .busWrite 4 2 ∨ e = .reset) ∧ t.errorBit b = false) := by
  cases h with
  | error b' _ hc =>
    by_cases hbb : b' = b
    · subst hbb; exact .inr (.inl ⟨hc, by simp⟩)
    · exact .inl (by simp [hbb])
  | clear => exact .inr (.inr ⟨.inl rfl, by cases b <;> rfl⟩)
  | reset => exact .inr (.inr ⟨.inr rfl, by cases b <;> rfl⟩)
  | record r v => exact .inl (by cases b <;> simp [State.errorBit])
  | _ => exact .inl (by cases b <;> rfl)

/-- R24. -/
theorem Effect.idx_cases (h : Effect s e t) : t.idx = s.idx ∨
    (e = .busWrite 4 1 ∧ s.busy = false) ∨ (e = .sinkReady ∧ s.busy = true) ∨ e = .reset := by
  cases h with
  | startAccepted hb => exact .inr (.inl ⟨rfl, hb⟩)
  | header b hb => exact .inr (.inr (.inl ⟨rfl, hb⟩))
  | payload b hb => exact .inr (.inr (.inl ⟨rfl, hb⟩))
  | trailer hb => exact .inr (.inr (.inl ⟨rfl, hb⟩))
  | reset => exact .inr (.inr (.inr rfl))
  | _ => exact .inl (by simp)

/-- R26. -/
theorem Effect.shadow_cases (h : Effect s e t) : t.shadow = s.shadow ∨
    (e = .busWrite 4 1 ∧ s.busy = false) ∨ e = .reset := by
  cases h with
  | startAccepted hb => exact .inr (.inl ⟨rfl, hb⟩)
  | reset => exact .inr (.inr rfl)
  | _ => exact .inl (by simp)

/-- R11 to R15, for each of the four registers. -/
theorem Effect.readRecord_cases (h : Effect s e t) (r : RecordReg) :
    (∃ v, e = .busWrite r.wa v ∧ readRecord r t = v) ∨ (e = .reset ∧ readRecord r t = 0) ∨
      readRecord r t = readRecord r s := by
  cases h with
  | record r' v =>
    rw [readRecord_writeRecord]
    by_cases hr : r' = r
    · subst hr; exact .inl ⟨v, rfl, if_pos rfl⟩
    · exact .inr (.inr (if_neg hr))
  | reset => exact .inr (.inl ⟨rfl, by cases r <;> rfl⟩)
  | error b => exact .inr (.inr (by cases r <;> simp [readRecord]))
  | _ => exact .inr (.inr (by cases r <;> rfl))

end

end Sys2Proof.Machine
end

section
/-! The state family: the invariant of R29, at reset, under every step and in every reachable state. -/

namespace Sys2Proof.Machine

/-- An accepted START meets R29 whatever the state before it: IDX and ACC are 0, BUSY is 1 and DONE is 0. -/
theorem latchRecord_inv (s : State) : (latchRecord s).Inv := by simp [State.Inv]

theorem resetEvent_inv (s : State) : (resetEvent s).Inv := by simp [State.Inv]

theorem emitTrailer_inv (s : State) : (emitTrailer s).Inv := by simp [State.Inv]

/-- A header step leaves ACC at 0, the sum of no payload bytes. -/
theorem emitHeader_inv {s : State} (b : Byte) (hinv : s.Inv) (hb : s.busy = true) (hi : s.idx.toNat ≤ 1) :
    (emitHeader b (s.idx + 1) s).Inv := by
  obtain ⟨-, -, -, hzero, hdone⟩ := hinv
  have hidx : (s.idx + 1).toNat = s.idx.toNat + 1 := index_succ _ (by omega)
  have hacc : s.acc = 0 := hzero hb (by omega)
  refine ⟨fun h => ?_, fun _ => ?_, fun _ _ _ => ?_, fun _ _ => hacc, fun _ => hdone hb⟩
  · exact absurd (h.symm.trans hb) (by decide)
  · rw [emitHeader_idx, hidx]; omega
  · rw [emitHeader_idx, hidx, show s.idx.toNat + 1 - 2 = 0 by omega]; exact hacc

/-- A payload step adds to ACC the next byte of the sum (R162). -/
theorem emitPayload_inv {s : State} {b : Byte} (hinv : s.Inv) (hb : s.busy = true) (h2 : 2 ≤ s.idx.toNat)
    (h17 : s.idx.toNat ≤ 17) (hp : (payload s.shadow)[s.idx.toNat - 2]? = some b) :
    (emitPayload b (s.idx + 1) s).Inv := by
  obtain ⟨-, -, hsum, -, hdone⟩ := hinv
  have hidx : (s.idx + 1).toNat = s.idx.toNat + 1 := index_succ _ (by omega)
  refine ⟨fun h => ?_, fun _ => ?_, fun _ _ _ => ?_, fun _ h => ?_, fun _ => hdone hb⟩
  · exact absurd (h.symm.trans hb) (by decide)
  · rw [emitPayload_idx, hidx]; omega
  · rw [emitPayload_idx, hidx, emitPayload_acc, emitPayload_shadow, hsum hb h2 (by omega),
      show s.idx.toNat + 1 - 2 = s.idx.toNat - 2 + 1 by omega]
    exact (csum8_take_succ _ _ _ hp).symm
  · rw [emitPayload_idx, hidx] at h; omega

theorem Effect.keeps_inv {s t : State} {e : Event} (h : Effect s e t) (hinv : s.Inv) : t.Inv := by
  cases h with
  | read wa w => exact hinv
  | record r v => exact hinv.of_kept (by simp) (by simp) (by simp) (by simp) (by simp)
  | nop => exact hinv
  | startAccepted hb => exact latchRecord_inv s
  | clear => exact hinv.of_kept rfl rfl rfl rfl (fun _ => rfl)
  | error b e hc => exact hinv.of_kept (by simp) (by simp) (by simp) (by simp) (by simp)
  | reset => exact resetEvent_inv s
  | idleSink hb => exact hinv
  | header b hb hi => exact emitHeader_inv b hinv hb hi
  | payload b hb h2 h17 hp => exact emitPayload_inv hinv hb h2 h17 hp
  | trailer hb h18 => exact emitTrailer_inv s

/-- Settles O41: an event's effect keeps R29, and taking the event from `pending` touches nothing R29 speaks of. -/
theorem everyStepKeepsTheInvariant : Obligations.EveryStepKeepsTheInvariant := by
  intro s t hinv ht
  cases hf : fetch s with
  | none => rw [step_of_none hf] at ht; cases ht; exact hinv
  | some taken =>
    obtain ⟨e, s'⟩ := taken
    obtain ⟨p, c, hperf⟩ := perform_of_step hf ht
    exact (effect_of_perform hperf).keeps_inv hinv

/-- Settles O40: with every register 0 and BUSY = 0, R29 asks only for IDX = 0. -/
theorem resetMeetsTheInvariant : Obligations.ResetMeetsTheInvariant := by
  have h : State.reset.Inv := by simp [State.Inv, State.reset]
  exact ⟨h, fun moments c => (Inv_with_pending _ moments c).mpr h⟩

/-- Settles O42, by induction on reachability. -/
theorem reachableStatesMeetTheInvariant : Obligations.ReachableStatesMeetTheInvariant := by
  intro s hs
  induction hs with
  | afterReset moments choices => exact resetMeetsTheInvariant.2 moments choices
  | agentsAct moments choices _ ih => exact (Inv_with_pending _ moments choices).mpr ih
  | afterStep _ ht ih => exact everyStepKeepsTheInvariant _ _ ih ht

/-- No event stops a state that meets R29: an acceptance there has an IDX of at most 18 (R161). -/
theorem perform_completes {s : State} (e : Event) (hinv : s.Inv) : ∃ t, perform e s = .next t := by
  cases e with
  | busRead wa =>
    obtain ⟨w, h⟩ := perform_busRead_next wa s
    exact ⟨_, h⟩
  | busWrite wa v =>
    obtain ⟨t, h, -⟩ := perform_busWrite wa v s
    exact ⟨t, h⟩
  | reset => exact ⟨_, perform_reset s⟩
  | sinkReady =>
    cases hb : s.busy with
    | false => exact ⟨s, perform_sinkReady_idle s hb⟩
    | true =>
      obtain ⟨-, hle, -⟩ := hinv
      obtain ⟨-, t, -, ht, -⟩ := perform_sinkReady s hb (hle hb)
      exact ⟨t, ht⟩

/-- Settles O43: the event a step takes completes, and every reachable state meets R29 (O42). -/
theorem noReachableStepStops : Obligations.NoReachableStepStops := by
  have key : ∀ s : State, s.Inv → ∃ t, step s = .next t := by
    intro s hinv
    cases hf : fetch s with
    | none => exact ⟨s, step_of_none hf⟩
    | some taken =>
      obtain ⟨e, s'⟩ := taken
      obtain ⟨p, c, rfl, -⟩ := fetch_cases hf
      rw [step_of_fetch hf]
      exact perform_completes e hinv
  exact ⟨key, fun s hs => key s (reachableStatesMeetTheInvariant s hs)⟩

end Sys2Proof.Machine
end

section
/-! The state family: the status and checksum words, bit by bit (10_state.md R17, R23, R25). -/

namespace Sys2Proof.Machine

theorem bitWord_getLsbD (b : Bool) (i : Nat) : (bitWord b).getLsbD i = (b && decide (i = 0)) := by
  cases b <;> simp [bitWord, BitVec.getLsbD_one]

/-- R17's table: the fields in their places, and 0 in bits 7:5 and above bit 12. -/
theorem statusWord_getLsbD (s : State) (i : Nat) (hi : i < 32) : (statusWord s).getLsbD i =
    if i = 0 then s.busy else if i = 1 then s.done else if i = 2 then s.errBusy else if i = 3 then s.errCmd
    else if i = 4 then s.errAccess else if 8 ≤ i then s.idx.getLsbD (i - 8) else false := by
  simp only [statusWord, BitVec.getLsbD_or, BitVec.getLsbD_shiftLeft, BitVec.getLsbD_setWidth, bitWord_getLsbD]
  interval_cases i <;> simp

/-- STATUS[12:8] is IDX (R24). -/
theorem statusWord_idx (s : State) : (statusWord s).extractLsb' 8 5 = s.idx := by
  apply BitVec.eq_of_getLsbD_eq
  intro i hi
  rw [BitVec.getLsbD_extractLsb', statusWord_getLsbD s _ (by omega)]
  interval_cases i <;> simp

/-- STATUS bits 7:5 are 0. -/
theorem statusWord_reserved_low (s : State) : (statusWord s).extractLsb' 5 3 = 0 := by
  apply BitVec.eq_of_getLsbD_eq
  intro i hi
  rw [BitVec.getLsbD_extractLsb', statusWord_getLsbD s _ (by omega)]
  interval_cases i <;> simp

/-- STATUS bits 31:13 are 0: IDX has 5 bits only. -/
theorem statusWord_reserved_high (s : State) : (statusWord s).extractLsb' 13 19 = 0 := by
  apply BitVec.eq_of_getLsbD_eq
  intro i hi
  rw [BitVec.getLsbD_extractLsb', statusWord_getLsbD s _ (by omega)]
  have hz : s.idx.getLsbD (13 + i - 8) = false := BitVec.getLsbD_of_ge _ _ (by omega)
  interval_cases i <;> simp

/-- CSUM[7:0] is ACC (R25). -/
theorem csumWord_acc (s : State) : (csumWord s).extractLsb' 0 8 = s.acc := by
  apply BitVec.eq_of_getLsbD_eq
  intro i hi
  simp [csumWord, hi, show i < 32 by omega]

/-- CSUM bits 31:8 are 0: ACC has 8 bits only. -/
theorem csumWord_reserved (s : State) : (csumWord s).extractLsb' 8 24 = 0 := by
  apply BitVec.eq_of_getLsbD_eq
  intro i hi
  simp [csumWord]

/-- Settles O8: the words RD_STATUS and RD_CSUM return are `statusWord` and `csumWord`, read off bit by bit. -/
theorem reservedBitsReadZero : Obligations.ReservedBitsReadZero := by
  intro s
  have hbit := statusWord_getLsbD s
  exact ⟨statusWord s, csumWord s, rfl, rfl, statusWord_reserved_low s, statusWord_reserved_high s,
    csumWord_reserved s, hbit 0 (by decide), hbit 1 (by decide), hbit 2 (by decide), hbit 3 (by decide),
    hbit 4 (by decide), statusWord_idx s, csumWord_acc s⟩

end Sys2Proof.Machine
end

section
/-! The state family: which event writes BUSY, DONE, the error bits, IDX, the shadow and the record registers. -/

namespace Sys2Proof.Machine

/-! ### What the named events leave behind -/

section
variable {s t : State}

theorem eq_latchRecord_of_start (h : perform (.busWrite 4 1) s = .next t) (hb : s.busy = false) :
    t = latchRecord s :=
  (Host.Outcome.next.inj ((perform_start_idle s hb).symm.trans h)).symm

theorem eq_clearSticky_of_clear (h : perform (.busWrite 4 2) s = .next t) : t = clearSticky s :=
  (Host.Outcome.next.inj h).symm

theorem eq_resetEvent_of_reset (h : perform .reset s = .next t) : t = resetEvent s :=
  (Host.Outcome.next.inj h).symm

theorem eq_emitTrailer_of_last (h : perform .sinkReady s = .next t) (hb : s.busy = true) (h18 : s.idx = 18) :
    t = emitTrailer s :=
  (Host.Outcome.next.inj ((perform_sinkReady_last s hb h18).symm.trans h)).symm

theorem idx_busy_of_acceptance (h : perform .sinkReady s = .next t) (hb : s.busy = true) (hlt : s.idx.toNat < 18) :
    t.idx.toNat = s.idx.toNat + 1 ∧ t.busy = true := by
  obtain ⟨-, u, -, hu, hbusy, hidx, -⟩ := perform_sinkReady_of_lt s hb hlt
  obtain rfl := Host.Outcome.next.inj (h.symm.trans hu)
  exact ⟨hidx, hbusy⟩

theorem eq_writeRecord_of_write {r : RecordReg} {v : Word} (h : perform (.busWrite r.wa v) s = .next t) :
    t = writeRecord r v s :=
  (Host.Outcome.next.inj ((perform_writeRecord r v s).symm.trans h)).symm

theorem eq_raise_of_cause {b : ErrorBit} {e : Event} (h : perform e s = .next t) (hc : b.Cause s e) :
    t = raise b s :=
  (Host.Outcome.next.inj ((perform_of_cause hc).symm.trans h)).symm

end

/-! ### BUSY and DONE -/

section
variable {s t : State} {e : Event}

theorem Effect.start_of_busy_rises (h : Effect s e t) (hs : s.busy = false) (ht : t.busy = true) :
    e = .busWrite 4 1 := by
  obtain h | ⟨he, -, -⟩ | ⟨-, hb, -, -⟩ | ⟨-, h⟩ := h.busy_cases
  · simp [h, hs] at ht
  · exact he
  · simp [hs] at hb
  · simp [h] at ht

theorem Effect.last_or_reset_of_busy_falls (h : Effect s e t) (hs : s.busy = true) (ht : t.busy = false) :
    (e = .sinkReady ∧ s.idx = 18) ∨ e = .reset := by
  obtain h | ⟨-, hb, -⟩ | ⟨he, -, h18, -⟩ | ⟨he, -⟩ := h.busy_cases
  · simp [h, hs] at ht
  · simp [hs] at hb
  · exact .inl ⟨he, h18⟩
  · exact .inr he

theorem Effect.last_of_done_rises (h : Effect s e t) (hs : s.done = false) (ht : t.done = true) :
    e = .sinkReady ∧ s.busy = true ∧ s.idx = 18 := by
  obtain h | ⟨he, hb, h18, -⟩ | ⟨-, h⟩ := h.done_cases
  · simp [h, hs] at ht
  · exact ⟨he, hb, h18⟩
  · simp [h] at ht

theorem Effect.cleared_of_done_falls (h : Effect s e t) (hs : s.done = true) (ht : t.done = false) :
    (e = .busWrite 4 1 ∧ s.busy = false) ∨ e = .busWrite 4 2 ∨ e = .reset := by
  obtain h | ⟨-, -, -, h⟩ | ⟨he, -⟩ := h.done_cases
  · simp [h, hs] at ht
  · simp [h] at ht
  · exact he

end

/-- Settles O25: what changes the bits, the named events' own equations for what they set, and R29 for the reachable
states. -/
theorem busyAndDoneChangeOnlyAsStated : Obligations.BusyAndDoneChangeOnlyAsStated := by
  refine ⟨fun s s' t e hf ht => ?_, fun s hs hdone => ?_, fun s hs hb => ⟨hb, ?_⟩⟩
  · obtain ⟨p, c, hperf⟩ := perform_of_step hf ht
    have heff := effect_of_perform hperf
    refine ⟨heff.start_of_busy_rises, heff.last_or_reset_of_busy_falls, heff.last_of_done_rises,
      heff.cleared_of_done_falls, fun he hb => ?_, fun he hb h18 => ?_, fun he => ?_, fun he => ?_⟩
    · subst he; rw [eq_latchRecord_of_start hperf hb]; exact ⟨rfl, rfl⟩
    · subst he; rw [eq_emitTrailer_of_last hperf hb h18]; exact ⟨rfl, rfl⟩
    · subst he; rw [eq_clearSticky_of_clear hperf]; rfl
    · subst he; rw [eq_resetEvent_of_reset hperf]; exact ⟨rfl, rfl⟩
  · obtain ⟨-, -, -, -, hnot⟩ := reachableStatesMeetTheInvariant s hs
    cases hb : s.busy with
    | false => rfl
    | true => exact absurd (hdone.symm.trans (hnot hb)) (by decide)
  · obtain ⟨-, hle, -⟩ := reachableStatesMeetTheInvariant s hs
    rw [State.txData, if_pos hb]
    exact frameByte_isSome _ _ _ (hle hb)

/-! ### The error bits -/

/-- An error bit rises only by its own cause. -/
theorem Effect.cause_of_errorBit_rises {s t : State} {e : Event} (h : Effect s e t) {b : ErrorBit}
    (hs : s.errorBit b = false) (ht : t.errorBit b = true) : b.Cause s e := by
  obtain h | ⟨hc, -⟩ | ⟨-, h⟩ := h.errorBit_cases b
  · simp [h, hs] at ht
  · exact hc
  · simp [h] at ht

/-- An error bit falls only by CLEAR_STATUS or a reset. -/
theorem Effect.clear_of_errorBit_falls {s t : State} {e : Event} (h : Effect s e t) {b : ErrorBit}
    (hs : s.errorBit b = true) (ht : t.errorBit b = false) : e = .busWrite 4 2 ∨ e = .reset := by
  obtain h | ⟨-, h⟩ | ⟨he, -⟩ := h.errorBit_cases b
  · simp [h, hs] at ht
  · simp [h] at ht
  · exact he

/-- Settles O26: one argument for the three bits, each with its own cause. -/
theorem errorBitsChangeOnlyAsStated : Obligations.ErrorBitsChangeOnlyAsStated := by
  intro s s' t e hf ht
  obtain ⟨p, c, hperf⟩ := perform_of_step hf ht
  have heff := effect_of_perform hperf
  have hset : ∀ b : ErrorBit, b.Cause s e → t.errorBit b = true := by
    intro b hc
    rw [eq_raise_of_cause (b := b) hperf (by cases b <;> exact hc)]
    simp
  refine ⟨hset .busy, heff.cause_of_errorBit_rises (b := .busy), fun v he h0 h1 h2 => hset .cmd ⟨v, he, h0, h1, h2⟩,
    heff.cause_of_errorBit_rises (b := .cmd), fun wa v he hw => hset .access ⟨wa, v, he, hw⟩,
    heff.cause_of_errorBit_rises (b := .access), ?_, ?_⟩
  · rintro (⟨hs, h⟩ | ⟨hs, h⟩ | ⟨hs, h⟩)
    · exact heff.clear_of_errorBit_falls (b := .busy) hs h
    · exact heff.clear_of_errorBit_falls (b := .cmd) hs h
    · exact heff.clear_of_errorBit_falls (b := .access) hs h
  · rintro (rfl | rfl)
    · rw [eq_clearSticky_of_clear hperf]; exact ⟨rfl, rfl, rfl⟩
    · rw [eq_resetEvent_of_reset hperf]; exact ⟨rfl, rfl, rfl⟩

/-! ### IDX, the shadow and the record registers -/

/-- While BUSY = 1 a state that meets R29 offers the shadow's frame byte at IDX (10_state.md R24, R27). -/
theorem txData_eq_frame_byte {s : State} (hinv : s.Inv) (hb : s.busy = true) :
    s.txData = (frame s.shadow)[s.idx.toNat]? := by
  rw [State.txData, if_pos hb]
  exact (frame_getElem?_idx s hinv hb).symm

/-- Settles O28: `Effect.idx_cases` for what changes IDX, the equations of START and of the acceptances for how, and
R29 for the reachable states. -/
theorem indexCountsAcceptances : Obligations.IndexCountsAcceptances := by
  refine ⟨fun s s' t e hf ht => ?_, fun s hs => ?_, statusWord_idx⟩
  · obtain ⟨p, c, hperf⟩ := perform_of_step hf ht
    refine ⟨fun he hb => ?_, fun he hb hlt => ?_, fun he hb h18 => ?_, fun hne => ?_⟩
    · subst he; rw [eq_latchRecord_of_start hperf hb]; rfl
    · subst he
      obtain ⟨hidx, hbusy⟩ := idx_busy_of_acceptance hperf hb hlt
      exact ⟨hidx, hbusy⟩
    · subst he; rw [eq_emitTrailer_of_last hperf hb h18]; exact ⟨rfl, rfl⟩
    · exact (effect_of_perform hperf).idx_cases.resolve_left hne
  · have hinv := reachableStatesMeetTheInvariant s hs
    refine ⟨?_, hinv.1, txData_eq_frame_byte hinv⟩
    obtain ⟨hidle, hle, -⟩ := hinv
    cases hb : s.busy with
    | false => rw [hidle hb]; decide
    | true => exact hle hb

/-- Settles O29 by `Effect.shadow_cases`. -/
theorem shadowIsWrittenOnlyByStartAndReset : Obligations.ShadowIsWrittenOnlyByStartAndReset := by
  intro s s' t e hf ht
  obtain ⟨p, c, hperf⟩ := perform_of_step hf ht
  refine ⟨fun he hb => ?_, fun he => ?_, fun hstart hreset => ?_⟩
  · subst he; rw [eq_latchRecord_of_start hperf hb]; rfl
  · subst he; rw [eq_resetEvent_of_reset hperf]; rfl
  · obtain h | h | h := (effect_of_perform hperf).shadow_cases
    · exact h
    · exact absurd h hstart
    · exact absurd h hreset

/-- A write to one record register leaves the others (R15). -/
theorem readRecord_of_other_write {s t : State} {r : RecordReg} {v : Word}
    (h : perform (.busWrite r.wa v) s = .next t) {r' : RecordReg} (hr : r ≠ r') :
    readRecord r' t = readRecord r' s := by
  rw [eq_writeRecord_of_write h, readRecord_writeRecord, if_neg hr]

/-- Settles O30: one argument for the four registers. -/
theorem recordRegistersAreWrittenOnlyByTheirWrite : Obligations.RecordRegistersAreWrittenOnlyByTheirWrite := by
  intro s s' t e hf ht
  obtain ⟨p, c, hperf⟩ := perform_of_step hf ht
  have hown := (effect_of_perform hperf).readRecord_cases
  have hother : ∀ (r r' : RecordReg) (v : Word), e = .busWrite r.wa v → r ≠ r' →
      readRecord r' t = readRecord r' s := by
    intro r r' v he hr
    subst he
    exact readRecord_of_other_write hperf hr
  refine ⟨hown .ts, hown .lat, hown .lon, hown .alt, fun v he => ?_, fun v he => ?_, fun v he => ?_, fun v he => ?_⟩
  · exact ⟨hother .ts .lat v he (by decide), hother .ts .lon v he (by decide), hother .ts .alt v he (by decide)⟩
  · exact ⟨hother .lat .ts v he (by decide), hother .lat .lon v he (by decide), hother .lat .alt v he (by decide)⟩
  · exact ⟨hother .lon .ts v he (by decide), hother .lon .lat v he (by decide), hother .lon .alt v he (by decide)⟩
  · exact ⟨hother .alt .ts v he (by decide), hother .alt .lat v he (by decide), hother .alt .lon v he (by decide)⟩

end Sys2Proof.Machine
end

section
/-! The state family: a whole frame, from START to the acceptance of byte 18, and the frame after reset (R30). -/

namespace Sys2Proof.Machine

/-- Two runs one after the other. -/
theorem runSteps_add {s t : State} (j k : Nat) (h : runSteps j s = .next t) : runSteps (j + k) s = runSteps k t := by
  have hrun : ∀ (M : Host.Core) (j : Nat) (u v : M.State), M.run j u = .next v → M.run (j + k) u = M.run k v := by
    intro M j
    induction j with
    | zero => intro u v huv; cases huv; rw [Nat.zero_add]
    | succ j ih =>
      intro u v huv
      rw [Nat.succ_add]
      simp only [Host.Core.run] at huv ⊢
      cases hu : M.step u with
      | next w => rw [hu] at huv; exact ih w v huv
      | fault r => rw [hu] at huv; cases huv
      | refused r => rw [hu] at huv; cases huv
  exact hrun core j s t h

/-- An event alone at its moment is taken as it is, after any empty moments. -/
theorem step_of_single_after_empties {s : State} {e : Event} {empties rest : List Moment}
    (hp : s.pending = empties ++ [e] :: rest) (hempty : empties.flatten = []) :
    step s = perform e { s with pending := rest } := by
  apply step_of_fetch
  rw [fetch, hp, nextMoment_empties _ _ hempty]
  rfl

/-- A frame in progress that was at offset `first` when `before` had been sent, and is `n` acceptances before
offset `last`: what every event of such a run keeps. -/
structure State.Sending (r : Record) (before : List Byte) (first last n : Nat) (s : State) : Prop where
  inv : s.Inv
  busy : s.busy = true
  shadow : s.shadow = r
  reached : first ≤ s.idx.toNat
  toGo : s.idx.toNat + n = last
  sent : s.sent = before ++ ((frame r).drop first).take (s.idx.toNat - first)

section
variable {r : Record} {before : List Byte} {first last n : Nat} {s : State}

theorem State.Sending.with_pending (h : s.Sending r before first last n) (p : List Moment) (c : Nat) :
    State.Sending r before first last n { s with pending := p, choices := c } :=
  ⟨h.inv, h.busy, h.shadow, h.reached, h.toGo, h.sent⟩

/-- An acceptance below byte 18 sends the next byte of the frame. -/
theorem State.Sending.sink (h : s.Sending r before first last (n + 1)) (hlast : last ≤ 18) :
    ∃ t, perform .sinkReady s = .next t ∧ t.Sending r before first last n ∧ t.pending = s.pending := by
  obtain ⟨hinv, hb, hshadow, hreached, htoGo, hsent⟩ := h
  obtain ⟨b, t, hbyte, ht, hb', hidx, hshadow', hsent', hpend⟩ := perform_sinkReady_of_lt s hb (by omega)
  refine ⟨t, ht, ⟨(effect_of_perform ht).keeps_inv hinv, hb', hshadow'.trans hshadow, by omega, by omega, ?_⟩, hpend⟩
  have hnext : ((frame r).drop first)[s.idx.toNat - first]? = some b := by
    rw [List.getElem?_drop, Nat.add_sub_cancel' hreached, ← hshadow, frame_getElem?_idx s hinv hb, hbyte]
  rw [hsent', hsent, hidx, show s.idx.toNat + 1 - first = s.idx.toNat - first + 1 by omega, List.take_add_one, hnext,
    Option.toList_some, List.append_assoc]

/-- A host transaction leaves a frame in progress as it is (R101). -/
theorem State.Sending.host (h : s.Sending r before first last n) {e : Event} (hsink : e ≠ .sinkReady)
    (hreset : e ≠ .reset) :
    ∃ t, perform e s = .next t ∧ t.Sending r before first last n ∧ t.pending = s.pending := by
  obtain ⟨hinv, hb, hshadow, hreached, htoGo, hsent⟩ := h
  obtain ⟨t, ht, hb', hidx, -, hshadow', hsent', hpend, -⟩ := perform_host_keeps e s hb hsink hreset
  exact ⟨t, ht, ⟨(effect_of_perform ht).keeps_inv hinv, hb', hshadow'.trans hshadow, hidx ▸ hreached, hidx ▸ htoGo,
    by rw [hsent', hidx, hsent]⟩, hpend⟩

/-- Acceptances up to byte 18 send the frame's bytes in order, whatever the host does (R60, R101). -/
theorem State.Sending.run {moments rest : List Moment} (h : s.Sending r before first last (acceptances moments))
    (hlast : last ≤ 18) (hr : noReset moments) (hp : s.pending = moments ++ rest) :
    ∃ t empties, runSteps moments.flatten.length s = .next t ∧ t.Sending r before first last 0 ∧
      t.pending = empties ++ rest ∧ empties.flatten = [] :=
  run_moments (State.Sending r before first last) (fun _ _ p c h => h.with_pending p c)
    (fun _ _ h => h.sink hlast) (fun _ _ _ h hsink hreset => h.host hsink hreset) _ moments rest s rfl hr h hp

end

/-- A START accepted is the beginning of the latched record's frame (R128). -/
theorem latchRecord_sending (s : State) (p : List Moment) :
    (latchRecord { s with pending := p }).Sending s.record s.sent 0 18 18 :=
  ⟨latchRecord_inv _, rfl, rfl, Nat.zero_le _, rfl, (latchRecord_sent _).trans (List.append_nil _).symm⟩

/-- The frame in progress with byte 18 on offer: its checksum is in ACC, and the other 18 bytes have been sent. -/
theorem State.Sending.trailer {r : Record} {before : List Byte} {s : State} (h : s.Sending r before 0 18 0) :
    s.idx = 18 ∧ s.acc = csum8 (payload r) ∧ s.sent ++ [s.acc] = before ++ frame r := by
  obtain ⟨⟨-, -, hsum, -⟩, hb, hshadow, -, htoGo, hsent⟩ := h
  have hidx : s.idx.toNat = 18 := htoGo
  have hacc : s.acc = csum8 (payload r) := by
    rw [hsum hb (by omega) (by omega), hidx, hshadow]; rfl
  refine ⟨BitVec.eq_of_toNat_eq hidx, hacc, ?_⟩
  rw [hsent, hidx, hacc, List.append_assoc]; rfl

/-- From an idle state a START, any moments with no reset and 18 acceptances, and one more acceptance send the frame
of the record registers (R163). -/
theorem run_whole_frame {s : State} {moments rest : List Moment} (hb : s.busy = false) (hr : noReset moments)
    (hacc : acceptances moments = 18)
    (hp : s.pending = [.busWrite 4 1] :: (moments ++ [.sinkReady] :: rest)) :
    ∃ t, runSteps (moments.flatten.length + 2) s = .next t ∧ t.sent = s.sent ++ frame s.record ∧ t.busy = false ∧
      t.done = true ∧ t.acc = csum8 (payload s.record) ∧ t.pending = rest := by
  have hstart : step s = .next (latchRecord { s with pending := moments ++ [.sinkReady] :: rest }) :=
    (step_of_single_after_empties (empties := []) hp rfl).trans (perform_start_idle _ hb)
  have hbegin : State.Sending s.record s.sent 0 18 (acceptances moments)
      (latchRecord { s with pending := moments ++ [.sinkReady] :: rest }) := by
    rw [hacc]; exact latchRecord_sending s _
  obtain ⟨u, empties, hrun, hsending, hpend, hempty⟩ := hbegin.run le_rfl hr rfl
  obtain ⟨h18, hsum, hsent⟩ := hsending.trailer
  have hlast : step u = .next (emitTrailer { u with pending := rest }) :=
    (step_of_single_after_empties hpend hempty).trans (perform_sinkReady_last _ hsending.busy h18)
  refine ⟨emitTrailer { u with pending := rest }, ?_, (emitTrailer_sent _).trans hsent, rfl, rfl, hsum, rfl⟩
  rw [show moments.flatten.length + 2 = moments.flatten.length + 1 + 1 from rfl, runSteps_succ _ hstart,
    runSteps_add _ 1 hrun, runSteps_succ 0 hlast, runSteps_zero]

/-- Settles O54: `run_whole_frame` from the reset state, whose record registers are all 0. -/
theorem resetStateSendsTheZeroFrame : Obligations.ResetStateSendsTheZeroFrame := by
  refine ⟨⟨rfl, rfl⟩, ⟨rfl, rfl, rfl, rfl, rfl, rfl, rfl⟩, ⟨rfl, rfl, rfl⟩, fun moments rest hr hacc => ?_⟩
  have hzero : frame State.reset.record = [0x7E, 0x10, 0, 0, 0, 0, 0, 0, 0, 0, 0, 0, 0, 0, 0, 0, 0, 0, 0] := by decide
  obtain ⟨t, hrun, hsent, -⟩ :=
    run_whole_frame (s := { State.reset with
      pending := [.busWrite 4 1] :: (moments ++ [.sinkReady] :: rest) }) rfl hr hacc rfl
  exact ⟨t, hrun, hsent.trans (congrArg (State.reset.sent ++ ·) hzero)⟩

end Sys2Proof.Machine
end

section
/-! The memory family (20_memory.md): the bytes sent come in frame order, however the host and the sink are timed (R60). -/

namespace Sys2Proof.Machine

/-- A frame in progress in a state that meets R29 is `n` acceptances before offset IDX + `n`. -/
theorem State.Inv.sending {s : State} (hinv : s.Inv) (hb : s.busy = true) (n : Nat) :
    s.Sending s.shadow s.sent s.idx.toNat (s.idx.toNat + n) n :=
  ⟨hinv, hb, rfl, le_rfl, rfl, by simp⟩

/-- Settles O45: the run lemma of a frame in progress, begun at the state's own IDX. -/
theorem bytesGoOutInFrameOrder : Obligations.BytesGoOutInFrameOrder := by
  intro s moments rest hinv hb hr hle hp
  obtain ⟨t, -, hrun, hsending, -⟩ := (hinv.sending hb (acceptances moments)).run hle hr hp
  have hidx : t.idx.toNat = s.idx.toNat + acceptances moments := hsending.toGo
  refine ⟨t, hrun, ?_, hidx, hsending.busy, hsending.shadow⟩
  rw [hsending.sent, hidx, Nat.add_sub_cancel_left]

end Sys2Proof.Machine
end

section
/-! The memory family: the bytes sent, grouped from each accepted START, are prefixes of frames (R60, R166, R201). -/

namespace Sys2Proof.Machine

theorem frames_of_trace {s t : State} {o : Obs} (h : t.trace = s.trace ++ [o]) : t.frames = groupObs s.frames o := by
  simp [State.frames, h]

theorem sent_of_transferred {s t : State} {b : Byte} {last : Bool} (h : t.trace = s.trace ++ [.transferred b last]) :
    t.sent = s.sent ++ [b] := by
  simp [State.sent, h, Obs.byte?]

@[simp] theorem returnWord_frames (w : Word) (s : State) : (returnWord w s).frames = s.frames :=
  frames_of_trace (returnWord_trace w s)

@[simp] theorem returnWord_sent (w : Word) (s : State) : (returnWord w s).sent = s.sent := by
  simp [State.sent, Obs.byte?]

@[simp] theorem latchRecord_frames (s : State) : (latchRecord s).frames = s.frames ++ [[]] :=
  frames_of_trace (latchRecord_trace s)

/-- An acceptance while BUSY = 1 transfers the shadow's frame byte at IDX; a frame that goes on has moved to the next
offset (R141). -/
theorem perform_sinkReady_transfers {s : State} (hinv : s.Inv) (hb : s.busy = true) :
    ∃ b t, (frame s.shadow)[s.idx.toNat]? = some b ∧ perform .sinkReady s = .next t ∧
      t.trace = s.trace ++ [.transferred b s.txLast] ∧ t.shadow = s.shadow ∧
      (t.busy = true → t.idx.toNat = s.idx.toNat + 1) := by
  have hoffered := frame_getElem?_idx s hinv hb
  obtain ⟨-, hle, -⟩ := hinv
  obtain ⟨b, t, hbyte, ht, hc⟩ := perform_sinkReady s hb (hle hb)
  refine ⟨b, t, hoffered.trans hbyte, ht, ?_⟩
  rcases hc with ⟨h1, rfl⟩ | ⟨-, h17, -, rfl⟩ | ⟨-, rfl, rfl⟩
  · exact ⟨rfl, rfl, fun _ => index_succ _ (by omega)⟩
  · exact ⟨rfl, rfl, fun _ => index_succ _ (by omega)⟩
  · exact ⟨rfl, rfl, fun h => by simp at h⟩

/-- What sends no byte and begins no frame keeps the three clauses. -/
theorem State.SentByFrames.of_kept {s t : State} (hs : s.SentByFrames) (htrace : t.frames = s.frames ∧ t.sent = s.sent)
    (hframe : t.busy = true → s.busy = true ∧ t.shadow = s.shadow ∧ t.idx = s.idx) : t.SentByFrames := by
  obtain ⟨hprefix, hnewest, hjoined⟩ := hs
  obtain ⟨hframes, hsent⟩ := htrace
  refine ⟨hframes ▸ hprefix, fun hbt => ?_, by rw [hframes, hsent]; exact hjoined⟩
  obtain ⟨hb, hshadow, hidx⟩ := hframe hbt
  rw [hframes, hshadow, hidx]
  exact hnewest hb

/-- An accepted START opens an empty group, the first 0 bytes of the latched record's frame (R166). -/
theorem State.SentByFrames.latch {s : State} (hs : s.SentByFrames) : (latchRecord s).SentByFrames := by
  obtain ⟨hprefix, -, hjoined⟩ := hs
  refine ⟨fun g hg => ?_, fun _ => by simp, by simpa using hjoined⟩
  rw [latchRecord_frames, List.mem_append, List.mem_singleton] at hg
  obtain hg | rfl := hg
  · exact hprefix g hg
  · exact ⟨s.record, List.nil_prefix⟩

/-- An acceptance makes the newest group one byte longer, by the next byte of the shadow's frame. -/
theorem State.SentByFrames.acceptance {s t : State} (hs : s.SentByFrames) (hinv : s.Inv) (hb : s.busy = true)
    (ht : perform .sinkReady s = .next t) : t.SentByFrames := by
  obtain ⟨hprefix, hnewest, hjoined⟩ := hs
  obtain ⟨b, t', hbyte, ht', htrace, hshadow, hidx⟩ := perform_sinkReady_transfers hinv hb
  cases ht.symm.trans ht'
  have hlast := hnewest hb
  have hframes : t.frames = s.frames.dropLast ++ [(frame s.shadow).take (s.idx.toNat + 1)] := by
    rw [frames_of_trace htrace, groupObs, hlast, Option.getD_some, List.take_add_one, hbyte, Option.toList_some]
  refine ⟨fun g hg => ?_, fun hbt => ?_, ?_⟩
  · rw [hframes, List.mem_append, List.mem_singleton] at hg
    obtain hg | rfl := hg
    · exact hprefix g (List.mem_of_mem_dropLast hg)
    · exact ⟨s.shadow, List.take_prefix _ _⟩
  · rw [hframes, List.getLast?_concat, hshadow, hidx hbt]
  · have hjoin : s.frames.dropLast.flatten ++ (frame s.shadow).take s.idx.toNat = s.sent := by
      rw [← hjoined, ← List.flatten_concat, List.dropLast_append_getLast? _ hlast]
    rw [hframes, sent_of_transferred htrace, ← hjoin, List.flatten_concat, List.take_add_one, hbyte,
      Option.toList_some, List.append_assoc]

/-- Every event keeps the three clauses: an accepted START opens a group, an acceptance lengthens the newest, and
nothing else sends a byte. -/
theorem State.SentByFrames.of_perform {s t : State} {e : Event} (hs : s.SentByFrames) (hinv : s.Inv)
    (ht : perform e s = .next t) : t.SentByFrames := by
  cases effect_of_perform ht with
  | startAccepted => exact hs.latch
  | header b hb | payload b hb | trailer hb => exact hs.acceptance hinv hb ht
  | reset => exact hs.of_kept ⟨rfl, rfl⟩ (by simp)
  | nop | idleSink => exact hs
  | read wa w => exact hs.of_kept (by simp) fun hb => ⟨hb, rfl, rfl⟩
  | clear => exact hs.of_kept ⟨rfl, rfl⟩ fun hb => ⟨hb, rfl, rfl⟩
  | record r v => exact hs.of_kept (by simp [State.frames, State.sent]) (by simp)
  | error b => exact hs.of_kept (by simp [State.frames, State.sent]) (by simp)

/-- The step lemma of `SentByFrames`: taking the event from `pending` touches nothing it speaks of. -/
theorem State.SentByFrames.of_step {s t : State} (hs : s.SentByFrames) (hinv : s.Inv) (ht : step s = .next t) :
    t.SentByFrames := by
  cases hf : fetch s with
  | none => rw [step_of_none hf] at ht; cases ht; exact hs
  | some taken =>
    obtain ⟨e, s'⟩ := taken
    obtain ⟨p, c, hperf⟩ := perform_of_step hf ht
    exact State.SentByFrames.of_perform (s := { s with pending := p, choices := c }) hs hinv hperf

/-- Right after reset nothing has been sent and no group is open. -/
theorem reset_sentByFrames : State.reset.SentByFrames :=
  ⟨fun _ hg => absurd hg List.not_mem_nil, fun hb => absurd hb (by decide), rfl⟩

/-- Settles O48: the step lemma, and an induction on reachability that takes R29 from O42. -/
theorem everyGroupSentIsAFramePrefix : Obligations.EveryGroupSentIsAFramePrefix := by
  refine ⟨fun s t hinv hs ht => hs.of_step hinv ht, fun s hs => ?_⟩
  induction hs with
  | afterReset moments choices => exact reset_sentByFrames
  | agentsAct moments choices _ ih => exact ih
  | afterStep hreach ht ih => exact ih.of_step (reachableStatesMeetTheInvariant _ hreach) ht

end Sys2Proof.Machine
end

section
/-! The memory family: reads have no side effect (R49), and simultaneous events take effect one at a time (R54). -/

namespace Sys2Proof.Machine

/-- An event alone at the first moment is performed. -/
theorem step_of_single {s : State} {e : Event} {rest : List Moment} (hp : s.pending = [e] :: rest) :
    step s = perform e { s with pending := rest } :=
  step_of_fetch (fetch_single s e rest hp)

/-- What a read of an address returns depends neither on the pending events nor on the trace, and the read changes
nothing but the trace (R49). -/
theorem perform_busRead_returns (wa : BitVec 3) (s : State) : ∃ w, ∀ (p : List Moment) (tr : List Obs),
    perform (.busRead wa) { s with pending := p, trace := tr } =
      .next { s with pending := p, trace := tr ++ [.returned w] } := by
  obtain ⟨w, h⟩ := perform_busRead wa s
  exact ⟨w, fun p tr => h { s with pending := p, trace := tr } rfl rfl rfl rfl rfl rfl⟩

/-- Settles O9: the second read is the first one with another trace and other pending events. -/
theorem readsHaveNoSideEffect : Obligations.ReadsHaveNoSideEffect := by
  intro wa s rest hp
  obtain ⟨w, hread⟩ := perform_busRead_returns wa s
  have hfirst := (step_of_single hp).trans (hread ([.busRead wa] :: rest) s.trace)
  have hsecond : step { s with pending := [.busRead wa] :: rest, trace := s.trace ++ [.returned w] } = _ :=
    (step_of_single rfl).trans (hread rest (s.trace ++ [.returned w]))
  refine ⟨w, ?_, ?_⟩
  · rw [runSteps_succ 0 hfirst, runSteps_zero]
  · rw [runSteps_succ 1 hfirst, runSteps_succ 0 hsecond, runSteps_zero, List.append_assoc, List.singleton_append]

/-- The event taken stands somewhere in its moment, and the others keep their order. -/
theorem takeEvent_split (e : Event) (es : List Event) (k : Nat) (hk : k < es.length + 1) :
    ∃ before after, e :: es = before ++ [(takeEvent e es k).1] ++ after ∧ (takeEvent e es k).2 = before ++ after := by
  refine ⟨(e :: es).take k, (e :: es).drop (k + 1), ?_, List.eraseIdx_eq_take_drop_succ _ _⟩
  have hk' : k < (e :: es).length := hk
  rw [takeEvent, List.getD_eq_getElem _ _ hk', List.append_assoc, List.singleton_append, List.cons_getElem_drop_succ,
    List.take_append_drop]

/-- Of two or more events at the first moment one is taken, and the others stay there in their order (R54). -/
theorem fetch_of_simultaneous {s : State} {m : Moment} {rest : List Moment} (hm : 2 ≤ m.length)
    (hp : s.pending = m :: rest) :
    ∃ before after e, m = before ++ [e] ++ after ∧
      fetch s = some (e, { s with pending := (before ++ after) :: rest, choices := s.choices + 1 }) := by
  obtain _ | ⟨e₁, _ | ⟨e₂, es⟩⟩ := m
  case cons.cons =>
    obtain ⟨before, after, hsplit, hrest⟩ := takeEvent_split e₁ (e₂ :: es)
      (Config.serialOrder s.choices % ((e₂ :: es).length + 1)) (Nat.mod_lt _ (Nat.succ_pos _))
    refine ⟨before, after, _, hsplit, ?_⟩
    rw [← hrest, fetch, hp]
    rfl
  all_goals exact absurd hm (by simp)

/-- Settles O52: the event taken, alone at a moment of its own before the others, is the one both steps perform. -/
theorem simultaneousEventsTakeASerialOrder : Obligations.SimultaneousEventsTakeASerialOrder := by
  intro s m rest hm hp
  obtain ⟨before, after, e, hsplit, hfetch⟩ := fetch_of_simultaneous hm hp
  refine ⟨before, after, e, hsplit, ?_⟩
  rw [step_of_fetch hfetch, step_of_single rfl]

end Sys2Proof.Machine
end

section
/-! The encoding family (30_encoding.md): the output frame (R72, R103) and its decoder. -/

namespace Sys2Proof.Machine

/-- The frame of the record that sixteen payload bytes read back to is those bytes between the two constants and
their checksum. -/
theorem frame_unbe32 (t3 t2 t1 t0 a3 a2 a1 a0 o3 o2 o1 o0 h3 h2 h1 h0 : Byte) :
    frame ⟨unbe32 t3 t2 t1 t0, unbe32 a3 a2 a1 a0, unbe32 o3 o2 o1 o0, unbe32 h3 h2 h1 h0⟩ =
      [startDelimiter, payloadLength, t3, t2, t1, t0, a3, a2, a1, a0, o3, o2, o1, o0, h3, h2, h1, h0,
        csum8 [t3, t2, t1, t0, a3, a2, a1, a0, o3, o2, o1, o0, h3, h2, h1, h0]] := by
  simp only [frame, payload, be32_unbe32]
  rfl

theorem decodeFrame_frame (r : Record) : decodeFrame (frame r) = .ok r := by
  simp only [frame, payload, be32, List.cons_append, List.nil_append, decodeFrame, ne_eq, not_true_eq_false, if_false,
    unbe32_be32]

theorem eq_frame_of_decodeFrame {bs : List Byte} {r : Record} (h : decodeFrame bs = .ok r) : bs = frame r := by
  unfold decodeFrame at h
  split at h
  · split_ifs at h with hdelim hlen hsum
    cases h
    rw [frame_unbe32, not_not.mp hdelim, not_not.mp hlen, not_not.mp hsum]
  · cases h

/-- Settles O39: the decoder reads a frame back to its record, and what it accepts is the frame of the record read. -/
theorem frameDecoderAcceptsExactlyTheFrames : Obligations.FrameDecoderAcceptsExactlyTheFrames :=
  fun _ r => ⟨eq_frame_of_decodeFrame, fun h => h ▸ decodeFrame_frame r⟩

end Sys2Proof.Machine
end

section
/-! The encoding family: the BUS, CMD and SEQ codes, their decoders and the encoder (R65 to R71). A BUS code is taken
apart once, as W in bit 3 over WA in bits 2:0 (R66). -/

namespace Sys2Proof.Machine

/-- Every BUS code is a read's or a write's (R66). -/
theorem busCode_cases (t : BitVec 4) : (∃ wa : BitVec 3, t = 0#1 ++ wa) ∨ ∃ wa : BitVec 3, t = 1#1 ++ wa := by
  revert t; decide

section
variable (wa : BitVec 3) (v : Word)

theorem busCode_read_bits :
    (0#1 ++ wa : BitVec 4).getLsbD 3 = false ∧ (0#1 ++ wa : BitVec 4).extractLsb' 0 3 = wa := by
  revert wa; decide

theorem busCode_write_bits :
    (1#1 ++ wa : BitVec 4).getLsbD 3 = true ∧ (1#1 ++ wa : BitVec 4).extractLsb' 0 3 = wa := by
  revert wa; decide

theorem decodeBus_read : decodeBus (0#1 ++ wa) v = if v = 0 then .ok (decodeRead wa) else .error .readCarriesData := by
  simp only [decodeBus, busCode_read_bits, Bool.false_eq_true, if_false]

theorem decodeBus_write : decodeBus (1#1 ++ wa) v = .ok (decodeWrite wa v) := by
  simp only [decodeBus, busCode_write_bits, if_true]

theorem busEvent_read : busEvent (0#1 ++ wa) v = .busRead wa := by
  simp only [busEvent, busCode_read_bits, Bool.false_eq_true, if_false]

theorem busEvent_write : busEvent (1#1 ++ wa) v = .busWrite wa v := by
  simp only [busEvent, busCode_write_bits, if_true]

/-- The read half of R67, inverted by the encoder. -/
theorem encode_decodeRead : (decodeRead wa).wf = true ∧ encode (decodeRead wa) = .bus (0#1 ++ wa) 0 := by
  obtain rfl | rfl | rfl | rfl | rfl | rfl | rfl | rfl := wordAddress_cases wa <;> exact ⟨rfl, rfl⟩

/-- The write half of R67, inverted by the encoder. -/
theorem encode_decodeWrite : (decodeWrite wa v).wf = true ∧ encode (decodeWrite wa v) = .bus (1#1 ++ wa) v := by
  obtain rfl | rfl | rfl | rfl | rfl | rfl | rfl | rfl := wordAddress_cases wa <;> exact ⟨rfl, rfl⟩

end

theorem decodeBus_read_zero (wa : BitVec 3) : decodeBus (0#1 ++ wa) 0 = .ok (decodeRead wa) := by
  rw [decodeBus_read, if_pos rfl]

/-- R69, inverted by the encoder: only a reserved word decodes to CMD_RSVD. -/
theorem encode_decodeCmd (op : Word) : (decodeCmd op).wf = true ∧ encode (decodeCmd op) = .cmd op := by
  unfold decodeCmd
  split_ifs with h0 h1 h2
  · exact ⟨rfl, h0 ▸ rfl⟩
  · exact ⟨rfl, h1 ▸ rfl⟩
  · exact ⟨rfl, h2 ▸ rfl⟩
  · exact ⟨by rw [Instr.wf, definedCommand, beq_false_of_ne h0, beq_false_of_ne h1, beq_false_of_ne h2]; rfl, rfl⟩

/-- R71, inverted by the encoder. -/
theorem encode_decodeSeq (idx : BitVec 5) : (decodeSeq idx).wf = true ∧ encode (decodeSeq idx) = .seq idx := by
  revert idx; decide

/-- Settles O56: three constructors carry an operand that their decoder tests or takes from the code; the code of each
of the others computes. -/
theorem decodeOfEncode : Obligations.DecodeOfEncode := by
  intro i
  cases i
  case cmdRsvd op => exact Laws.RoundTrip.cmdRsvd op
  case seqInvalid20 lo => exact Laws.RoundTrip.seqInvalid20 lo
  case seqInvalid24 lo => exact Laws.RoundTrip.seqInvalid24 lo
  all_goals exact Laws.RoundTrip.of_decode rfl

/-- Settles O57, format by format; a read is accepted with DATA = 0 only, so its DATA is not lost (log 14). -/
theorem encodeOfDecode : Obligations.EncodeOfDecode := by
  intro c i h
  cases c with
  | bus t v =>
    obtain ⟨wa, rfl⟩ | ⟨wa, rfl⟩ := busCode_cases t
    · rw [decode, decodeBus_read] at h
      split_ifs at h with hv
      cases h
      exact hv ▸ encode_decodeRead wa
    · rw [decode, decodeBus_write] at h
      cases h
      exact encode_decodeWrite wa v
  | cmd op => cases h; exact encode_decodeCmd op
  | seq idx => cases h; exact encode_decodeSeq idx

/-- Settles O55: the rows are the reads and the writes of the eight word addresses. -/
theorem busCodesDecodeByTheTable : Obligations.BusCodesDecodeByTheTable := fun v =>
  ⟨decodeBus_read_zero 0, decodeBus_read_zero 1, decodeBus_read_zero 2, decodeBus_read_zero 3,
    decodeBus_read_zero 4, decodeBus_read_zero 5, decodeBus_read_zero 6, decodeBus_read_zero 7,
    decodeBus_write 0 v, decodeBus_write 1 v, decodeBus_write 2 v, decodeBus_write 3 v,
    decodeBus_write 4 v, decodeBus_write 5 v, decodeBus_write 6 v, decodeBus_write 7 v⟩

end Sys2Proof.Machine
end

section
/-! The encoding family: the instruction an event runs, and how table words and script lines become events (R66, R70,
R76 to R78, R123). -/

namespace Sys2Proof.Machine

/-- A host transaction runs what its BUS code decodes to. -/
theorem perform_busEvent {t : BitVec 4} {v : Word} {i : Instr} (h : decode (.bus t v) = .ok i) (s : State) :
    perform (busEvent t v) s = exec i s := by
  obtain ⟨wa, rfl⟩ | ⟨wa, rfl⟩ := busCode_cases t
  · rw [decode, decodeBus_read] at h
    split_ifs at h
    cases h
    rw [busEvent_read]
    rfl
  · rw [decode, decodeBus_write] at h
    cases h
    rw [busEvent_write]
    rfl

/-- An acceptance while BUSY = 1 runs what IDX decodes to (R70, R140). -/
theorem perform_sinkReady_busy {s : State} (hb : s.busy = true) : perform .sinkReady s = exec (decodeSeq s.idx) s := by
  simp [perform, selectAction, hb]

/-- A write of CMD runs the command its DATA decodes to (R123). -/
theorem perform_writeCmd (op : Word) (s : State) : perform (.busWrite 4 op) s = exec (decodeCmd op) s :=
  exec_wrCmd op s

/-- Settles O49: the event alone at its moment is performed, and each kind of event runs the instruction it selects. -/
theorem stepRunsTheDecodedInstruction : Obligations.StepRunsTheDecodedInstruction := by
  intro s rest
  refine ⟨fun t v i hi hp => ?_, fun i hi hb hp => ?_, fun hp => ?_⟩
  · rw [step_of_single hp, perform_busEvent hi]
  · cases hi
    exact (step_of_single hp).trans (perform_sinkReady_busy hb)
  · rw [step_of_single hp, perform_reset]

theorem decodeTableWord_eq_some {nbits w : Nat} {i : Instr} (h : decodeTableWord nbits w = some i) :
    ∃ c, codeOfTableWord nbits w = .ok c ∧ decode c = .ok i := by
  unfold decodeTableWord at h
  split at h
  case h_1 c hc =>
    refine ⟨c, hc, ?_⟩
    cases hd : decode c with
    | ok j => rw [hd] at h; cases h; rfl
    | error e => rw [hd] at h; cases h
  case h_2 => cases h

/-- Settles O50: the event placed is alone at the first moment, and it runs what the word's code decodes to. -/
theorem fetchWordRunsNext : Obligations.FetchWordRunsNext := by
  intro s nbits w i h
  obtain ⟨c, hc, hi⟩ := decodeTableWord_eq_some h
  unfold State.withFetchWord stageWord
  rw [hc]
  cases c with
  | bus t v => exact .inl ((step_of_single rfl).trans (perform_busEvent hi s))
  | cmd op => cases hi; exact .inl ((step_of_single rfl).trans (perform_writeCmd op s))
  | seq idx => cases hi; exact .inr ⟨idx, rfl, (step_of_single rfl).trans (perform_sinkReady_busy rfl)⟩

/-! ### Script lines -/

theorem assemble_append (first second : List ScriptLine) :
    assemble (first ++ second) = assemble first ++ assemble second := by
  simp [assemble]

theorem assemble_rd (reg : HostReg) : assemble [.rd reg] = [[busEvent (0#1 ++ reg.wa) 0]] := by
  rw [busEvent_read]
  rfl

theorem assemble_wr (reg : HostReg) (v : Word) : assemble [.wr reg v] = [[busEvent (1#1 ++ reg.wa) v]] := by
  rw [busEvent_write]
  rfl

/-- A line that stands for `n` times one event is `n` moments of that event. -/
theorem assemble_of_replicate {line : ScriptLine} {n : Nat} {e : Event} (h : line.events = List.replicate n e) :
    assemble [line] = List.replicate n [e] := by
  simp [assemble, h]

/-- Settles O58: the reads and the writes by word address, the loops by their count, the other lines by their
expansion. -/
theorem scriptLinesAssembleByTheTable : Obligations.ScriptLinesAssembleByTheTable := by
  refine ⟨⟨assemble_rd .ts, assemble_rd .lat, assemble_rd .lon, assemble_rd .alt, assemble_rd .cmd,
      assemble_rd .status, assemble_rd .csum, assemble_rd .rsvd7⟩,
    fun v => ⟨assemble_wr .ts v, assemble_wr .lat v, assemble_wr .lon v, assemble_wr .alt v, assemble_wr .cmd v,
      assemble_wr .status v, assemble_wr .csum v, assemble_wr .rsvd7 v, assemble_wr .cmd v⟩,
    ⟨assemble_wr .cmd 0, assemble_wr .cmd 1, assemble_wr .cmd 2⟩, fun _ _ _ _ => rfl, rfl,
    fun n => ⟨assemble_of_replicate rfl, assemble_of_replicate rfl, assemble_of_replicate rfl⟩, rfl,
    fun w => ⟨?_, Iff.rfl⟩, assemble_append⟩
  rw [pollIdleExits, Bool.not_eq_true']

end Sys2Proof.Machine
end

section
/-! The frame encoder family (40_frame_encoder.md): the bytes of a frame in progress depend only on its shadow (R101). -/

namespace Sys2Proof.Machine

/-- The byte on offer in a frame in progress is its frame's byte at IDX. -/
theorem State.Sending.txData {r : Record} {before : List Byte} {first last n : Nat} {s : State}
    (h : s.Sending r before first last n) : s.txData = (frame r)[s.idx.toNat]? := by
  rw [State.txData, if_pos h.busy, ← frame_getElem?_idx s h.inv h.busy, h.shadow]

/-- What a frame in progress sends over some acceptances, and then offers, is the part of the shadow's frame from IDX
on, however the acceptances are timed. -/
theorem State.Inv.run_sends_and_offers {s : State} {moments rest : List Moment} (hinv : s.Inv) (hb : s.busy = true)
    (hr : noReset moments) (hle : s.idx.toNat + acceptances moments ≤ 18) (hp : s.pending = moments ++ rest) :
    ∃ t, runSteps moments.flatten.length s = .next t ∧
      t.sent = s.sent ++ ((frame s.shadow).drop s.idx.toNat).take (acceptances moments) ∧
      t.txData = (frame s.shadow)[s.idx.toNat + acceptances moments]? := by
  obtain ⟨t, -, hrun, hsending, -⟩ := (hinv.sending hb (acceptances moments)).run hle hr hp
  have hidx : t.idx.toNat = s.idx.toNat + acceptances moments := hsending.toGo
  refine ⟨t, hrun, ?_, ?_⟩
  · rw [hsending.sent, hidx, Nat.add_sub_cancel_left]
  · rw [hsending.txData, hidx]

/-- Settles O47: both runs send and offer the same part of the same frame. -/
theorem frameBytesDependOnlyOnTheShadow : Obligations.FrameBytesDependOnlyOnTheShadow := by
  intro s₁ s₂ m₁ m₂ rest₁ rest₂ hinv₁ hinv₂ hb₁ hb₂ hshadow hidx hr₁ hr₂ hacc hle hp₁ hp₂
  have hle₂ : s₂.idx.toNat + acceptances m₂ ≤ 18 := by rwa [← hidx, ← hacc]
  obtain ⟨t₁, hrun₁, hsent₁, hoffer₁⟩ := hinv₁.run_sends_and_offers hb₁ hr₁ hle hp₁
  obtain ⟨t₂, hrun₂, hsent₂, hoffer₂⟩ := hinv₂.run_sends_and_offers hb₂ hr₂ hle₂ hp₂
  rw [← hshadow, ← hidx, ← hacc] at hsent₂ hoffer₂
  exact ⟨t₁, t₂, _, hrun₁, hrun₂, hsent₁, hsent₂, hoffer₁.trans hoffer₂.symm⟩

end Sys2Proof.Machine
end

section
/-! The frame encoder family: the serializer and the payload (R91, R94). -/

namespace Sys2Proof

/-- Settles O38: `be32` lists the four slices, and `unbe32` is its inverse on both sides. -/
theorem serializerIsABijection : Obligations.SerializerIsABijection :=
  ⟨fun _ => rfl, be32_injective, be32_unbe32⟩

/-- Byte `k` of a serialized word is its bits `31-8k : 24-8k`. -/
theorem be32_getElem? (x : Word) {k : Nat} (hk : k < 4) :
    (be32 x)[k]? = some (BitVec.ofNat 8 (x.toNat / 2 ^ (24 - 8 * k))) := by
  have hslice : (be32 x)[k]? = some (x.extractLsb' (24 - 8 * k) 8) := by interval_cases k <;> rfl
  rw [hslice, BitVec.extractLsb', Nat.shiftRight_eq_div_pow]

/-- Payload bytes `4f` to `4f + 3` are the serialization of field `f`. -/
theorem payload_field (r : Record) {f : Nat} (hf : f < 4) :
    ∃ x : Word, [r.ts, r.lat, r.lon, r.alt][f]? = some x ∧ ((payload r).drop (4 * f)).take 4 = be32 x := by
  refine ⟨_, List.getElem?_eq_getElem hf, ?_⟩
  interval_cases f <;> rfl

/-- Settles O34: a field's place in the payload, then a byte's place in the field. -/
theorem payloadIsBigEndianByField : Obligations.PayloadIsBigEndianByField := by
  refine ⟨fun r => ⟨rfl, payload_length r⟩, fun r f k hf hk => ?_⟩
  obtain ⟨x, hfield, hbytes⟩ := payload_field r hf
  refine ⟨x, hfield, ?_⟩
  rw [← be32_getElem? x hk, ← hbytes, List.getElem?_take_of_lt hk, List.getElem?_drop]

end Sys2Proof
end

section
/-! The frame encoder family: the checksum (R95, R104). -/

namespace Sys2Proof

/-- Settles O35, by induction on the bytes: each addition of the accumulator drops its carry. -/
theorem checksumIsTheSumModulo256 : Obligations.ChecksumIsTheSumModulo256 := by
  intro p
  induction p with
  | nil => rfl
  | cons b p ih => rw [csum8_cons, BitVec.toNat_add, ih, List.map_cons, List.sum_cons, Nat.add_mod_mod]

/-- With `csum8_append`: a byte counts as itself, wherever it stands. -/
theorem csum8_singleton (b : Byte) : csum8 [b] = b := by simp

/-- Settles O36: byte 18 is the checksum of the payload, which is bytes 2 to 17; the checksum of joined parts is the
sum of the parts' checksums, and addition modulo 256 is commutative. -/
theorem checksumWeighsEveryPayloadByteAlike : Obligations.ChecksumWeighsEveryPayloadByteAlike := by
  refine ⟨fun _ => rfl, fun a b x d => ?_, fun a b c x y => ?_, fun a b c x y d => ?_⟩
  all_goals
    simp only [csum8_append, csum8_singleton]
    ring

end Sys2Proof
end

section
/-! The frame encoder family: the frame's shape and its reading back (R96 to R98, R103). -/

namespace Sys2Proof

/-- Settles O33: every part stands at a fixed offset, for `be32` always gives four bytes. -/
theorem frameHasTheFixedShape : Obligations.FrameHasTheFixedShape := by
  intro r
  have hzero : frame ⟨0, 0, 0, 0⟩ = [0x7E, 0x10, 0, 0, 0, 0, 0, 0, 0, 0, 0, 0, 0, 0, 0, 0, 0, 0, 0] := by decide
  exact ⟨frame_length r, payload_length r, rfl, rfl, rfl, rfl, rfl, rfl, hzero⟩

/-- Settles O37: the sixteen bytes are four serializations, each read back by `unbe32`. -/
theorem frameRoundTrip : Obligations.FrameRoundTrip :=
  ⟨fun r => ⟨_, _, _, _, _, _, _, _, _, _, _, _, _, _, _, _, rfl, unbe32_be32 r.ts, unbe32_be32 r.lat,
    unbe32_be32 r.lon, unbe32_be32 r.alt⟩, frame_injective⟩

end Sys2Proof
end

section
/-! The host interface family (41_host_interface.md), support: what the reads, writes and commands do, each once, from
the shared operations they are made of. -/

namespace Sys2Proof.Machine

/-! ### Record registers -/

theorem exec_readRecord (r : RecordReg) (s : State) :
    exec (decodeRead r.wa) s = .next (returnWord (readRecord r s) s) := by
  cases r <;> rfl

theorem exec_writeRecord (r : RecordReg) (v : Word) (s : State) :
    exec (decodeWrite r.wa v) s = .next (writeRecord r v s) := by
  cases r <;> rfl

/-- The word just written is the word read (R111 to R114). -/
theorem exec_read_after_write {r : RecordReg} {v : Word} {s t : State}
    (h : exec (decodeWrite r.wa v) s = .next t) : exec (decodeRead r.wa) t = .next (returnWord v t) := by
  obtain rfl := Host.Outcome.next.inj ((exec_writeRecord r v s).symm.trans h)
  rw [exec_readRecord, readRecord_writeRecord, if_pos rfl]

/-- An event that is no write of the register and no reset leaves it (R15). -/
theorem Effect.keeps_readRecord {s t : State} {e : Event} (h : Effect s e t) (hreset : e ≠ .reset) (r : RecordReg)
    (hwrite : ∀ v, e ≠ .busWrite r.wa v) : readRecord r t = readRecord r s := by
  obtain ⟨v, he, -⟩ | ⟨he, -⟩ | hkept := h.readRecord_cases r
  · exact absurd he (hwrite v)
  · exact absurd he hreset
  · exact hkept

/-! ### Commands -/

theorem exec_start_idle {s : State} (hb : s.busy = false) : exec .start s = .next (latchRecord s) :=
  perform_start_idle s hb

theorem exec_start_busy {s : State} (hb : s.busy = true) : exec .start s = .next (raise .busy s) :=
  perform_of_cause (b := .busy) ⟨rfl, hb⟩

/-- R69: every word but the three defined ones is reserved. -/
theorem decodeCmd_reserved {v : Word} (h0 : v ≠ 0) (h1 : v ≠ 1) (h2 : v ≠ 2) : decodeCmd v = .cmdRsvd v := by
  rw [decodeCmd, if_neg h0, if_neg h1, if_neg h2]

/-- A write of CMD never raises ERR_ACCESS (R123). -/
theorem errAccess_of_runCommand {v : Word} {s : State} (h : (runCommand v s).errAccess = true) :
    s.errAccess = true := by
  obtain ⟨-, hrun⟩ | ⟨-, hrun⟩ | ⟨-, hrun⟩ | ⟨-, -, -, hrun⟩ := runCommand_cases v s <;> rw [hrun] at h
  · exact h
  · obtain ⟨-, hstart⟩ | ⟨-, hstart⟩ := startFrame_cases s <;> simpa [hstart] using h
  · exact absurd h (by simp)
  · simpa using h

/-! ### The checksum accumulator -/

/-- During a frame ACC is the sum of the payload bytes accepted so far (R25, R29). -/
theorem State.Inv.acc_eq_partial_sum {s : State} (hinv : s.Inv) (hb : s.busy = true) :
    s.acc = csum8 ((payload s.shadow).take (s.idx.toNat - 2)) := by
  obtain ⟨-, hle, hsum, hzero, -⟩ := hinv
  by_cases h2 : 2 ≤ s.idx.toNat
  · exact hsum hb h2 (hle hb)
  · rw [hzero hb (by omega), Nat.sub_eq_zero_of_le (by omega)]
    rfl

/-- When byte 18 is on offer all 16 payload bytes are in the sum. -/
theorem State.Inv.acc_eq_checksum {s : State} (hinv : s.Inv) (hb : s.busy = true) (h18 : s.idx = 18) :
    s.acc = csum8 (payload s.shadow) := by
  rw [hinv.acc_eq_partial_sum hb, h18]
  rfl

theorem csum8_payload_zero : csum8 (payload ⟨0, 0, 0, 0⟩) = 0 := by decide

/-- While no frame is in progress ACC is the checksum of the shadow: of the frame sent last, or of the zero record. -/
def State.IdleChecksum (s : State) : Prop := s.busy = false → s.acc = csum8 (payload s.shadow)

theorem Effect.keeps_idleChecksum {s t : State} {e : Event} (h : Effect s e t) (hinv : s.Inv) (hs : s.IdleChecksum) :
    t.IdleChecksum := by
  cases h with
  | trailer hb h18 => exact fun _ => hinv.acc_eq_checksum hb h18
  | reset => exact fun _ => csum8_payload_zero.symm
  | startAccepted => exact fun hidle => absurd hidle (by simp)
  | header b hb | payload b hb => exact fun hidle => absurd (hb.symm.trans hidle) (by decide)
  | nop | idleSink | read | clear => exact hs
  | record r v => simpa [State.IdleChecksum] using hs
  | error b => simpa [State.IdleChecksum] using hs

theorem State.IdleChecksum.of_reachable {s : State} (hreach : Reachable s) : s.IdleChecksum := by
  induction hreach with
  | afterReset moments choices => exact fun _ => csum8_payload_zero.symm
  | agentsAct moments choices _ ih => exact ih
  | @afterStep s t hreach ht ih =>
    cases hf : fetch s with
    | none => rw [step_of_none hf] at ht; cases ht; exact ih
    | some taken =>
      obtain ⟨e, s'⟩ := taken
      obtain ⟨p, c, hperf⟩ := perform_of_step hf ht
      exact (effect_of_perform hperf).keeps_idleChecksum (reachableStatesMeetTheInvariant s hreach) ih

end Sys2Proof.Machine
end

section
/-! The host interface family: two events at one moment (R54), and what a host transaction meets there beside a sink
acceptance (R206, R207, R209). -/

namespace Sys2Proof.Machine

/-! ### Two events in either order -/

/-- A run goes by what its first step answers. -/
theorem runSteps_congr {s s' : State} (k : Nat) (h : step s = step s') : runSteps (k + 1) s = runSteps (k + 1) s' := by
  have hrun : ∀ (M : Host.Core) (u v : M.State), M.step u = M.step v → M.run (k + 1) u = M.run (k + 1) v := by
    intro M u v huv
    simp only [Host.Core.run, huv]
  exact hrun core s s' h

/-- Two moments of one event each are two events one after the other. -/
theorem runSteps_serial {s u t : State} {e₁ e₂ : Event} {rest : List Moment} (hp : s.pending = [e₁] :: [e₂] :: rest)
    (h₁ : perform e₁ { s with pending := [e₂] :: rest } = .next u) (hu : u.pending = [e₂] :: rest)
    (h₂ : perform e₂ { u with pending := rest } = .next t) : runSteps 2 s = .next t := by
  rw [runSteps_succ 1 ((step_of_single hp).trans h₁), runSteps_succ 0 ((step_of_single hu).trans h₂), runSteps_zero]

/-- Two events at one moment happen in the one serial order or in the other (R54). -/
theorem runSteps_pair {s : State} {e₁ e₂ : Event} {rest : List Moment} (hp : s.pending = [e₁, e₂] :: rest) :
    runSteps 2 s = runSteps 2 { s with pending := [e₁] :: [e₂] :: rest, choices := s.choices + 1 } ∨
    runSteps 2 s = runSteps 2 { s with pending := [e₂] :: [e₁] :: rest, choices := s.choices + 1 } := by
  obtain ⟨before, after, e, hsplit, hstep⟩ := simultaneousEventsTakeASerialOrder s [e₁, e₂] rest le_rfl hp
  obtain _ | ⟨x, _ | ⟨y, before⟩⟩ := before
  · cases hsplit
    exact .inl (runSteps_congr 1 hstep)
  · cases hsplit
    exact .inr (runSteps_congr 1 hstep)
  · simp at hsplit

/-- If each serial order has its outcome wherever the count of choices stands, the moment has one of the two. -/
theorem runSteps_race {s a b : State} {e₁ e₂ : Event} {rest : List Moment}
    (h₁ : ∀ c, runSteps 2 { s with pending := [e₁] :: [e₂] :: rest, choices := c } = .next { a with choices := c })
    (h₂ : ∀ c, runSteps 2 { s with pending := [e₂] :: [e₁] :: rest, choices := c } = .next { b with choices := c }) :
    runSteps 2 { s with pending := [e₁, e₂] :: rest } = .next { a with choices := s.choices + 1 } ∨
    runSteps 2 { s with pending := [e₁, e₂] :: rest } = .next { b with choices := s.choices + 1 } := by
  obtain h | h := runSteps_pair (s := { s with pending := [e₁, e₂] :: rest }) rfl
  · exact .inl (h.trans (h₁ _))
  · exact .inr (h.trans (h₂ _))

/-! ### A command beside the acceptance of byte 18 -/

/-- O2's statement, a clause of O14: after the acceptance START finds BUSY = 0, before it BUSY = 1. -/
theorem startAgainstTheLastByte : Obligations.StartAgainstTheLastByte := by
  intro s rest hb h18 herr
  have hlater : ∀ c, runSteps 2 { s with pending := [.sinkReady] :: [.busWrite 4 1] :: rest, choices := c } =
      .next (latchRecord (emitTrailer { s with pending := rest, choices := c })) := fun c =>
    runSteps_serial rfl (perform_sinkReady_last _ hb h18) rfl (perform_start_idle _ rfl)
  have hearlier : ∀ c, runSteps 2 { s with pending := [.busWrite 4 1] :: [.sinkReady] :: rest, choices := c } =
      .next (emitTrailer (raise .busy { s with pending := rest, choices := c })) := fun c =>
    runSteps_serial rfl (perform_of_cause (b := .busy) ⟨rfl, hb⟩) rfl (perform_sinkReady_last _ hb h18)
  exact ⟨_, _, hlater s.choices, ⟨rfl, rfl, herr, rfl, rfl⟩, hearlier s.choices, ⟨rfl, rfl, rfl, rfl, rfl⟩,
    runSteps_race hlater hearlier⟩

/-- O3's statement, a clause of O13: the later of the two events decides DONE. -/
theorem clearAgainstTheLastByte : Obligations.ClearAgainstTheLastByte := by
  intro s rest hb h18
  have hlater : ∀ c, runSteps 2 { s with pending := [.sinkReady] :: [.busWrite 4 2] :: rest, choices := c } =
      .next (clearSticky (emitTrailer { s with pending := rest, choices := c })) := fun c =>
    runSteps_serial rfl (perform_sinkReady_last _ hb h18) rfl (perform_clearStatus _)
  have hearlier : ∀ c, runSteps 2 { s with pending := [.busWrite 4 2] :: [.sinkReady] :: rest, choices := c } =
      .next (emitTrailer (clearSticky { s with pending := rest, choices := c })) := fun c =>
    runSteps_serial rfl (perform_clearStatus _) rfl (perform_sinkReady_last _ hb h18)
  exact ⟨_, _, hlater s.choices, ⟨rfl, rfl⟩, hearlier s.choices, ⟨rfl, rfl⟩, runSteps_race hlater hearlier⟩

/-! ### A read beside an acceptance -/

theorem perform_sinkReady_header {s : State} {b : Byte} (hb : s.busy = true) (h1 : s.idx.toNat ≤ 1)
    (hbyte : frameByte s.shadow s.acc s.idx.toNat = some b) :
    perform .sinkReady s = .next (emitHeader b (s.idx + 1) s) := by
  obtain ⟨b', t, hbyte', ht, ⟨-, rfl⟩ | ⟨h2, -⟩ | ⟨h18, -⟩⟩ := perform_sinkReady s hb (by omega)
  · cases hbyte.symm.trans hbyte'; exact ht
  · omega
  · rw [h18] at h1; exact absurd h1 (by decide)

theorem perform_sinkReady_payload {s : State} {b : Byte} (hb : s.busy = true) (h2 : 2 ≤ s.idx.toNat)
    (h17 : s.idx.toNat ≤ 17) (hbyte : frameByte s.shadow s.acc s.idx.toNat = some b) :
    perform .sinkReady s = .next (emitPayload b (s.idx + 1) s) := by
  obtain ⟨b', t, hbyte', ht, ⟨h1, -⟩ | ⟨-, -, -, rfl⟩ | ⟨h18, -⟩⟩ := perform_sinkReady s hb (by omega)
  · omega
  · cases hbyte.symm.trans hbyte'; exact ht
  · rw [h18] at h17; exact absurd h17 (by decide)

/-- The same registers in other surroundings: other pending events, another count of choices, another trace. -/
def State.withSurroundings (s : State) (p : List Moment) (c : Nat) (tr : List Obs) : State :=
  { s with pending := p, choices := c, trace := tr }

@[simp] theorem withSurroundings_trace (s : State) (p : List Moment) (c : Nat) (tr : List Obs) :
    (s.withSurroundings p c tr).trace = tr := rfl

/-- The word a read returns is a matter of the registers alone. -/
theorem perform_busRead_anywhere (wa : BitVec 3) (s : State) : ∃ w, ∀ p c tr,
    perform (.busRead wa) (s.withSurroundings p c tr) = .next (s.withSurroundings p c (tr ++ [.returned w])) := by
  obtain ⟨w, h⟩ := perform_busRead wa s
  exact ⟨w, fun p c tr => h (s.withSurroundings p c tr) rfl rfl rfl rfl rfl rfl⟩

/-- The byte an acceptance transfers, and the registers `u` it leaves, are a matter of the registers alone. -/
theorem perform_sinkReady_anywhere {s : State} (hb : s.busy = true) (hi : s.idx.toNat ≤ 18) :
    ∃ (b : Byte) (u : State), ∀ p c tr, perform .sinkReady (s.withSurroundings p c tr) =
      .next (u.withSurroundings p c (tr ++ [.transferred b s.txLast])) := by
  obtain ⟨b, hbyte⟩ := frameByte_isSome s.shadow s.acc _ hi
  obtain h1 | h2 := Nat.lt_or_ge s.idx.toNat 2
  · exact ⟨b, emitHeader b (s.idx + 1) s, fun _ _ _ => perform_sinkReady_header hb (Nat.le_of_lt_succ h1) hbyte⟩
  · obtain h17 | h18 := Nat.lt_or_ge s.idx.toNat 18
    · exact ⟨b, emitPayload b (s.idx + 1) s, fun _ _ _ =>
        perform_sinkReady_payload hb h2 (Nat.le_of_lt_succ h17) hbyte⟩
    · exact ⟨s.acc, emitTrailer s, fun _ _ _ =>
        perform_sinkReady_last _ hb (BitVec.eq_of_toNat_eq (hi.antisymm h18))⟩

/-- O1's statement, the last clause of O5: the read returns the word of the registers it finds, and the acceptance
sends its byte in either order. -/
theorem readAgainstAnAcceptance : Obligations.ReadAgainstAnAcceptance := by
  intro s wa rest hb hi hp
  obtain ⟨b, u, haccept⟩ := perform_sinkReady_anywhere hb hi
  obtain ⟨before, hbefore⟩ := perform_busRead_anywhere wa s
  obtain ⟨after, hafter⟩ := perform_busRead_anywhere wa u
  have hread : exec (decodeRead wa) s = _ := hbefore s.pending s.choices s.trace
  have hsink : exec (decodeSeq s.idx) s = _ :=
    (perform_sinkReady_busy hb).symm.trans (haccept s.pending s.choices s.trace)
  have hreadFirst : runSteps 2 (s.withSurroundings ([.busRead wa] :: [.sinkReady] :: rest) (s.choices + 1) s.trace) =
      .next (u.withSurroundings rest (s.choices + 1)
        (s.trace ++ [.returned before] ++ [.transferred b s.txLast])) :=
    runSteps_serial rfl (hbefore _ _ _) rfl (haccept _ _ _)
  have hsinkFirst : runSteps 2 (s.withSurroundings ([.sinkReady] :: [.busRead wa] :: rest) (s.choices + 1) s.trace) =
      .next (u.withSurroundings rest (s.choices + 1)
        (s.trace ++ [.transferred b s.txLast] ++ [.returned after])) :=
    runSteps_serial rfl (haccept _ _ _) rfl (hafter _ _ _)
  obtain horder | horder := runSteps_pair hp
  · refine ⟨before, after, _, _, _, hread, hsink, hafter _ _ _, ?_, horder.trans hreadFirst, rfl, ?_, rfl, rfl, .inl ?_⟩
    all_goals simp [State.sent, State.returnedWords, List.filterMap_cons, Obs.word?, Obs.byte?]
  · refine ⟨before, after, _, _, _, hread, hsink, hafter _ _ _, ?_, horder.trans hsinkFirst, rfl, ?_, rfl, rfl, .inr ?_⟩
    all_goals simp [State.sent, State.returnedWords, List.filterMap_cons, Obs.word?, Obs.byte?]

end Sys2Proof.Machine
end

section
/-! The host interface family: the host reads (41_host_interface.md section 3). -/

namespace Sys2Proof.Machine

/-- Settles O4: one argument for the four registers in each clause. -/
theorem recordReadsReturnTheRegister : Obligations.RecordReadsReturnTheRegister := by
  refine ⟨⟨decodeBus_read_zero 0, decodeBus_read_zero 1, decodeBus_read_zero 2, decodeBus_read_zero 3⟩,
    fun s => ⟨exec_readRecord .ts s, exec_readRecord .lat s, exec_readRecord .lon s, exec_readRecord .alt s⟩,
    fun s t v => ⟨exec_read_after_write (r := .ts), exec_read_after_write (r := .lat),
      exec_read_after_write (r := .lon), exec_read_after_write (r := .alt)⟩,
    fun s s' t e hf ht hreset => ?_, rfl, rfl, rfl, rfl⟩
  obtain ⟨p, c, hperf⟩ := perform_of_step hf ht
  have hkept := (effect_of_perform hperf).keeps_readRecord hreset
  exact ⟨hkept .ts, hkept .lat, hkept .lon, hkept .alt⟩

theorem bitWord_eq_setWidth (b : Bool) : bitWord b = (BitVec.ofBool b).setWidth 32 := by
  cases b <;> rfl

/-- Settles O5: the word RD_STATUS returns is `statusWord`, whose bits 12:8 are IDX, and R29 has IDX = 0 while idle. -/
theorem statusReadReturnsTheStatusWord : Obligations.StatusReadReturnsTheStatusWord := by
  refine ⟨decodeBus_read_zero 5, fun s => ⟨statusWord s, ?_, rfl, fun hinv hidle => ?_⟩, readAgainstAnAcceptance⟩
  · simp only [statusWord, bitWord_eq_setWidth]
  · rw [statusWord_idx, hinv.1 hidle]

/-- Settles O6: R29 gives the sum during a frame, and `IdleChecksum` between frames. -/
theorem checksumReadReturnsTheAccumulator : Obligations.ChecksumReadReturnsTheAccumulator :=
  ⟨decodeBus_read_zero 6, fun _ => rfl, fun s hreach => (reachableStatesMeetTheInvariant s hreach).acc_eq_partial_sum,
    fun _ hreach => State.IdleChecksum.of_reachable hreach, rfl⟩

/-- Settles O7: neither word address has a register behind it. -/
theorem commandAndReservedWordsReadZero : Obligations.CommandAndReservedWordsReadZero :=
  ⟨decodeBus_read_zero 4, decodeBus_read_zero 7, fun _ => ⟨rfl, rfl⟩⟩

end Sys2Proof.Machine
end

section
/-! The host interface family: the host writes and the commands (41_host_interface.md sections 4 and 5). -/

namespace Sys2Proof.Machine

/-- Settles O10: one argument for the four registers, and the shadow a START accepted takes from them. -/
theorem recordWritesStoreTheWholeWord : Obligations.RecordWritesStoreTheWholeWord := fun v s =>
  ⟨⟨decodeBus_write 0 v, exec_writeRecord .ts v s⟩, ⟨decodeBus_write 1 v, exec_writeRecord .lat v s⟩,
    ⟨decodeBus_write 2 v, exec_writeRecord .lon v s⟩, ⟨decodeBus_write 3 v, exec_writeRecord .alt v s⟩,
    fun hb => ⟨latchRecord s, exec_start_idle hb, latchRecord_shadow s⟩⟩

/-- Settles O11: a write of word address 5, 6 or 7 is the cause of ERR_ACCESS. -/
theorem readOnlyWritesRaiseErrAccess : Obligations.ReadOnlyWritesRaiseErrAccess := by
  intro v s
  have hraise : ∀ wa : BitVec 3, wa = 5 ∨ wa = 6 ∨ wa = 7 → perform (.busWrite wa v) s = .next (raise .access s) :=
    fun wa hwa => perform_of_cause (b := .access) ⟨wa, v, rfl, hwa⟩
  exact ⟨⟨decodeBus_write 5 v, hraise 5 (by simp)⟩, ⟨decodeBus_write 6 v, hraise 6 (by simp)⟩,
    ⟨decodeBus_write 7 v, hraise 7 (by simp)⟩⟩

/-- Settles O12: WR_CMD is the command its DATA decodes to, and no command raises ERR_ACCESS. -/
theorem commandWriteRunsTheDecodedCommand : Obligations.CommandWriteRunsTheDecodedCommand := by
  intro v s
  refine ⟨decodeBus_write 4 v, ?_, ?_, ?_, fun h0 h1 h2 => ?_, runCommand v s, rfl, errAccess_of_runCommand⟩
  · rintro rfl; exact exec_wrCmd 0 s
  · rintro rfl; exact exec_wrCmd 1 s
  · rintro rfl; exact exec_wrCmd 2 s
  · rw [exec_wrCmd, decodeCmd_reserved h0 h1 h2]

/-- Settles O13: each command on its own, through WR_CMD, and beside the acceptance of byte 18. -/
theorem nopAndClearStatus : Obligations.NopAndClearStatus :=
  ⟨rfl, rfl, clearAgainstTheLastByte, fun s => ⟨rfl, exec_wrCmd 0 s, rfl, exec_wrCmd 2 s⟩⟩

/-- Settles O14: a START is accepted while BUSY = 0, when the first byte offered is the delimiter, and refused while
BUSY = 1. -/
theorem startLatchesTheRecordOrIsRefused : Obligations.StartLatchesTheRecordOrIsRefused :=
  ⟨rfl, startAgainstTheLastByte, fun s =>
    ⟨exec_wrCmd 1 s, fun hb => ⟨latchRecord s, exec_start_idle hb, rfl, rfl, rfl⟩, exec_start_busy⟩⟩

/-- Settles O15: a reserved word is the cause of ERR_CMD, on its own and through WR_CMD. -/
theorem reservedCommandRaisesErrCmd : Obligations.ReservedCommandRaisesErrCmd := fun v _ h0 h1 h2 =>
  ⟨decodeCmd_reserved h0 h1 h2, rfl, perform_of_cause (b := .cmd) ⟨v, rfl, h0, h1, h2⟩⟩

end Sys2Proof.Machine
end

section
/-! The sequencer family (42_sequencer.md): from an accepted START, 19 acceptances send the frame of the record latched
(R163). -/

namespace Sys2Proof.Machine

/-- Settles O44: a whole frame is sent, and the checksum ACC then holds is the frame's byte 18. -/
theorem frameLaw : Obligations.FrameLaw := by
  intro s moments rest hb hr hacc hp
  obtain ⟨t, hrun, hsent, hidle, hdone, hsum, hpend⟩ := run_whole_frame hb hr hacc hp
  have hbyte18 : (frame s.record)[18]? = some (csum8 (payload s.record)) := rfl
  exact ⟨t, hrun, hsent, hidle, hdone, hsum ▸ hbyte18.symm, hpend⟩

end Sys2Proof.Machine
end

section
/-! The sequencer family, support: what an acceptance writes, field by field, and which instruction it runs (R140,
R141). -/

namespace Sys2Proof.Machine

/-! ### An acceptance as a record update -/

section
variable {s : State} {b : Byte}

theorem emitHeader_eq_update (i : BitVec 5) (hlt : s.idx.toNat < 18) :
    emitHeader b i s = { s with trace := s.trace ++ [.transferred b false], idx := i } := by
  simp only [emitHeader, emit, observe, txLast_of_lt s hlt]

theorem emitPayload_eq_update (i : BitVec 5) (hlt : s.idx.toNat < 18) :
    emitPayload b i s = { s with trace := s.trace ++ [.transferred b false], acc := s.acc + b, idx := i } := by
  simp only [emitPayload, emit, observe, txLast_of_lt s hlt]

/-- The trailer is the one byte with TX_LAST = 1 (10_state.md R27). -/
theorem emitTrailer_eq_update (hb : s.busy = true) (h18 : s.idx = 18) : emitTrailer s =
    { s with trace := s.trace ++ [.transferred s.acc true], busy := false, done := true, idx := 0 } := by
  have hlast : s.txLast = true := by simp [State.txLast, hb, h18]
  simp only [emitTrailer, emit, observe, hlast]

/-- R142, R143: the two header bytes are not summed. -/
theorem acceptance_of_header (hb : s.busy = true) (h1 : s.idx.toNat ≤ 1)
    (hbyte : frameByte s.shadow s.acc s.idx.toNat = some b) :
    perform .sinkReady s = .next { s with trace := s.trace ++ [.transferred b false], idx := s.idx + 1 } := by
  rw [perform_sinkReady_header hb h1 hbyte, emitHeader_eq_update _ (by omega)]

/-- R144 to R159: a payload byte is added to ACC. -/
theorem acceptance_of_payload (hb : s.busy = true) (h2 : 2 ≤ s.idx.toNat) (h17 : s.idx.toNat ≤ 17)
    (hbyte : frameByte s.shadow s.acc s.idx.toNat = some b) :
    perform .sinkReady s =
      .next { s with trace := s.trace ++ [.transferred b false], acc := s.acc + b, idx := s.idx + 1 } := by
  rw [perform_sinkReady_payload hb h2 h17 hbyte, emitPayload_eq_update _ (by omega)]

/-- R160: the checksum goes out and the frame is over. -/
theorem acceptance_of_trailer (hb : s.busy = true) (h18 : s.idx = 18) :
    perform .sinkReady s = .next
      { s with trace := s.trace ++ [.transferred s.acc true], busy := false, done := true, idx := 0 } := by
  rw [perform_sinkReady_last s hb h18, emitTrailer_eq_update hb h18]

/-- The step that IDX decodes to is what an acceptance runs (R70). -/
theorem exec_eq_acceptance {i : Instr} {k : BitVec 5} (hb : s.busy = true) (hk : s.idx = k) (hi : decodeSeq k = i) :
    exec i s = perform .sinkReady s := by
  rw [perform_sinkReady_busy hb, hk, hi]

end

/-! ### The steps by index -/

/-- The steps 0 to 18 are acceptances (R141). -/
theorem exec_decodeSeq_eq_sinkAccept {i : BitVec 5} (hi : i.toNat ≤ 18) (s : State) :
    ∃ effect, exec (decodeSeq i) s = sinkAccept effect s := by
  obtain rfl | rfl | rfl | rfl | rfl | rfl | rfl | rfl | rfl | rfl | rfl | rfl | rfl | rfl | rfl | rfl | rfl | rfl |
    rfl := index_cases i hi <;> exact ⟨_, rfl⟩

theorem sinkAccept_idle (effect : State → State) {s : State} (hb : s.busy = false) :
    sinkAccept effect s = .refused .noSinkAcceptWhileIdle := by
  simp [sinkAccept, hb]

/-- The steps 19 to 31 are the rows of SEQ_INVALID (R71, R161). -/
theorem decodeSeq_invalid : ∀ i : BitVec 5, 19 ≤ i.toNat →
    decodeSeq i = .seqInvalid19 ∨ (∃ lo, decodeSeq i = .seqInvalid20 lo) ∨ ∃ lo, decodeSeq i = .seqInvalid24 lo := by
  decide

/-! ### ACC and the bytes sent, by event -/

@[simp] theorem raise_sent (b : ErrorBit) (s : State) : (raise b s).sent = s.sent := by simp [State.sent]
@[simp] theorem writeRecord_sent (r : RecordReg) (v : Word) (s : State) : (writeRecord r v s).sent = s.sent := by
  simp [State.sent]
@[simp] theorem clearSticky_sent (s : State) : (clearSticky s).sent = s.sent := rfl
@[simp] theorem resetEvent_sent (s : State) : (resetEvent s).sent = s.sent := rfl

section
variable {s t : State} {e : Event}

/-- R140: a byte is sent only by an acceptance while BUSY = 1. -/
theorem Effect.sent_cases (h : Effect s e t) : t.sent = s.sent ∨ (e = .sinkReady ∧ s.busy = true) := by
  cases h with
  | header b hb | payload b hb | trailer hb => exact .inr ⟨rfl, hb⟩
  | _ => exact .inl (by simp)

/-- R162. -/
theorem Effect.acc_cases (h : Effect s e t) : t.acc = s.acc ∨ (e = .busWrite 4 1 ∧ s.busy = false) ∨ e = .reset ∨
    (e = .sinkReady ∧ s.busy = true ∧ 2 ≤ s.idx.toNat ∧ s.idx.toNat ≤ 17) := by
  cases h with
  | startAccepted hb => exact .inr (.inl ⟨rfl, hb⟩)
  | reset => exact .inr (.inr (.inl rfl))
  | payload b hb h2 h17 => exact .inr (.inr (.inr ⟨rfl, hb, h2, h17⟩))
  | _ => exact .inl (by simp)

theorem Effect.sent_of_idle (h : Effect s e t) (hb : s.busy = false) : t.sent = s.sent :=
  h.sent_cases.resolve_right fun ⟨_, hbusy⟩ => absurd (hbusy.symm.trans hb) (by decide)

/-- While BUSY = 0 only START and a reset write ACC or BUSY. -/
theorem Effect.keeps_idle (h : Effect s e t) (hb : s.busy = false) (hstart : e ≠ .busWrite 4 1) (hreset : e ≠ .reset) :
    t.acc = s.acc ∧ t.busy = false := by
  have hnot : s.busy ≠ true := by simp [hb]
  constructor
  · obtain hacc | ⟨he, -⟩ | he | ⟨-, hbusy, -⟩ := h.acc_cases
    · exact hacc
    · exact absurd he hstart
    · exact absurd he hreset
    · exact absurd hbusy hnot
  · obtain hbusy | ⟨he, -⟩ | ⟨-, hbusy, -⟩ | ⟨he, -⟩ := h.busy_cases
    · exact hbusy.trans hb
    · exact absurd he hstart
    · exact absurd hbusy hnot
    · exact absurd he hreset

end

/-- Up to the first payload step nothing has been summed (R29). -/
theorem State.Inv.acc_eq_zero {s : State} (hinv : s.Inv) (hb : s.busy = true) (h2 : s.idx.toNat ≤ 2) : s.acc = 0 := by
  obtain ⟨-, -, -, hzero, -⟩ := hinv
  exact hzero hb h2

end Sys2Proof.Machine
end

section
/-! The sequencer family: the nineteen emit steps and SEQ_INVALID (42_sequencer.md sections 2 to 4). -/

namespace Sys2Proof.Machine

/-- A header step sends the byte offered at its index. -/
theorem exec_header_step {i : Instr} {k : BitVec 5} {b : Byte} {s : State} (hb : s.busy = true) (hk : s.idx = k)
    (hi : decodeSeq k = i) (h1 : k.toNat ≤ 1) (hbyte : frameByte s.shadow s.acc k.toNat = some b) :
    exec i s = .next { s with trace := s.trace ++ [.transferred b false], idx := k + 1 } := by
  subst hk
  rw [exec_eq_acceptance hb rfl hi, acceptance_of_header hb h1 hbyte]

/-- Settles O16: the bytes offered at IDX 0 and 1 are the two constants. -/
theorem headerStepsEmitDelimiterAndLength : Obligations.HeaderStepsEmitDelimiterAndLength := by
  refine ⟨⟨rfl, rfl⟩, fun s hb => ⟨fun h0 => ?_, fun h1 => ?_, fun hinv hidx => hinv.acc_eq_zero hb ?_⟩⟩
  · exact exec_header_step hb h0 rfl (by decide) rfl
  · exact exec_header_step hb h1 rfl (by decide) rfl
  · obtain h | h := hidx <;> simp [h]

/-- A payload step's slice of the shadow is the byte offered at its index. -/
theorem payloadStepMeets_of_frameByte {i : Instr} {k : BitVec 5} {b : State → Byte} (hi : decodeSeq k = i)
    (h2 : 2 ≤ k.toNat) (h17 : k.toNat ≤ 17) (hbyte : ∀ s acc, frameByte (State.shadow s) acc k.toNat = some (b s)) :
    payloadStepMeets i k b := by
  refine ⟨hi, fun s hb hk => ?_⟩
  subst hk
  have hacc : s.acc + b s = BitVec.ofNat 8 ((s.acc.toNat + (b s).toNat) % 256) := BitVec.eq_of_toNat_eq (by simp)
  have hidx : s.idx + 1 = BitVec.ofNat 5 (s.idx.toNat + 1) := BitVec.eq_of_toNat_eq (by simp)
  rw [exec_eq_acceptance hb rfl hi, acceptance_of_payload hb h2 h17 (hbyte s s.acc), hacc, hidx]

/-- Settles O17: each step's slice is the payload byte its index offers. -/
theorem timestampAndLatitudeStepsEmitAndAccumulate : Obligations.TimestampAndLatitudeStepsEmitAndAccumulate := by
  refine ⟨?_, ?_, ?_, ?_, ?_, ?_, ?_, ?_, fun s hinv hb h2 => hinv.acc_eq_zero hb (by simp [h2])⟩
  all_goals exact payloadStepMeets_of_frameByte rfl (by decide) (by decide) fun _ _ => rfl

/-- The last payload step completes the checksum and leads to EMIT_CSUM (R159). -/
theorem exec_emitAltB0_completes_checksum {s : State} (hinv : s.Inv) (hb : s.busy = true) (h17 : s.idx = 17) :
    ∃ t, exec .emitAltB0 s = .next t ∧ t.acc = csum8 (payload s.shadow) ∧ t.idx = 18 ∧
      decodeSeq t.idx = .emitCsum := by
  have hidx : s.idx.toNat = 17 := congrArg BitVec.toNat h17
  obtain ⟨-, t, -, ht, hbusy, hnext, hshadow, -⟩ := perform_sinkReady_of_lt s hb (by omega)
  have h18 : t.idx = 18 := BitVec.eq_of_toNat_eq (by rw [hnext, hidx]; rfl)
  have hsum := ((effect_of_perform ht).keeps_inv hinv).acc_eq_checksum hbusy h18
  exact ⟨t, (exec_eq_acceptance hb h17 rfl).trans ht, hshadow ▸ hsum, h18, h18 ▸ rfl⟩

/-- Settles O18: as O17, and R29 after the last payload step is the checksum. -/
theorem longitudeAndAltitudeStepsEmitAndAccumulate : Obligations.LongitudeAndAltitudeStepsEmitAndAccumulate := by
  refine ⟨?_, ?_, ?_, ?_, ?_, ?_, ?_, ?_, fun _ => exec_emitAltB0_completes_checksum⟩
  all_goals exact payloadStepMeets_of_frameByte rfl (by decide) (by decide) fun _ _ => rfl

/-- Settles O19: the trailer step's own equation, and while BUSY = 0 only START and a reset write ACC or BUSY. -/
theorem checksumStepEndsTheFrame : Obligations.ChecksumStepEndsTheFrame := by
  refine ⟨rfl, fun s s' t e hb hf ht hstart hreset => ?_, fun s hb h18 => ?_⟩
  · obtain ⟨p, c, hperf⟩ := perform_of_step hf ht
    have heff := effect_of_perform hperf
    obtain ⟨hacc, hidle⟩ := heff.keeps_idle hb hstart hreset
    exact ⟨hacc, hidle, heff.sent_of_idle hb⟩
  · exact ⟨fun hinv => hinv.acc_eq_checksum hb h18, _,
      (exec_eq_acceptance hb h18 rfl).trans (acceptance_of_trailer hb h18), rfl, rfl, rfl⟩

/-- Settles O20: the indices from 19 on decode to rows that fault, and O28 bounds IDX in the reachable states. -/
theorem invalidIndexFaultsAndIsUnreachable : Obligations.InvalidIndexFaultsAndIsUnreachable := by
  refine ⟨fun i hi s => ?_, fun _ => rfl, fun _ _ => rfl, fun _ _ => rfl, fun s hs => ?_⟩
  · obtain h | ⟨lo, h⟩ | ⟨lo, h⟩ := decodeSeq_invalid i hi <;> rw [h] <;> rfl
  · obtain ⟨-, hreachable, -⟩ := indexCountsAcceptances
    exact (hreachable s hs).1

/-- Settles O21: an acceptance alone at its moment is performed, and R141's table is by the three ranges of IDX. -/
theorem sinkAcceptTransfersTheOfferedByte : Obligations.SinkAcceptTransfersTheOfferedByte := by
  refine ⟨fun s rest hb h19 hp => ?_, fun s rest hb hi hp => ?_⟩
  · exact (step_of_single hp).trans (perform_sinkReady_invalid _ hb (Nat.not_le.mpr h19))
  · obtain ⟨b, hbyte⟩ := frameByte_isSome s.shadow s.acc _ hi
    refine ⟨b, hbyte, by rw [State.txData, if_pos hb, hbyte], fun h1 => ?_, fun h2 h17 => ?_, fun h18 => ?_⟩
    · exact (step_of_single hp).trans (acceptance_of_header hb h1 hbyte)
    · exact (step_of_single hp).trans (acceptance_of_payload hb h2 h17 hbyte)
    · have hacc : s.acc = b := by rw [h18] at hbyte; exact Option.some.inj hbyte
      exact hacc ▸ (step_of_single hp).trans (acceptance_of_trailer hb h18)

/-- Settles O23: the steps 0 to 18 are acceptances, which require BUSY = 1. -/
theorem emitStepsAreRefusedWhileIdle : Obligations.EmitStepsAreRefusedWhileIdle := by
  intro i s hi hb
  obtain ⟨effect, hexec⟩ := exec_decodeSeq_eq_sinkAccept hi s
  exact hexec.trans (sinkAccept_idle effect hb)

/-- Settles O27: the equations of START, reset and the payload step, `Effect.acc_cases` for all other events, and
R29 for the sum. -/
theorem accumulatorChangesAtThreePoints : Obligations.AccumulatorChangesAtThreePoints := by
  refine ⟨fun s s' t e hf ht => ?_, fun s hs => (reachableStatesMeetTheInvariant s hs).acc_eq_checksum⟩
  obtain ⟨p, c, hperf⟩ := perform_of_step hf ht
  refine ⟨fun he hb => ?_, fun he => ?_, fun he hb h2 h17 => ?_, fun hne => ?_⟩
  · subst he; rw [eq_latchRecord_of_start hperf hb]; rfl
  · subst he; rw [eq_resetEvent_of_reset hperf]; rfl
  · subst he
    obtain ⟨b, hbyte⟩ := frameByte_isSome s.shadow s.acc s.idx.toNat (by omega)
    cases hperf.symm.trans (perform_sinkReady_payload hb h2 h17 hbyte)
    exact ⟨b, emitPayload_sent _ _ _, BitVec.toNat_add _ _⟩
  · exact (effect_of_perform hperf).acc_cases.resolve_left hne

end Sys2Proof.Machine
end

section
/-! The sequencer family: the idle block, the finished run and the stalled frame (R140, R165, R166). -/

namespace Sys2Proof.Machine

/-! ### Idle and finished -/

/-- Settles O22: no event sends a byte while BUSY = 0, and a ready sink does nothing there (log 4). -/
theorem noByteLeavesWhileIdle : Obligations.NoByteLeavesWhileIdle := by
  refine ⟨fun s t hb ht => ?_, fun s rest hb hp => ?_⟩
  · cases hf : fetch s with
    | none => rw [step_of_none hf] at ht; cases ht; rfl
    | some taken =>
      obtain ⟨e, s'⟩ := taken
      obtain ⟨p, c, hperf⟩ := perform_of_step hf ht
      exact (effect_of_perform hperf).sent_of_idle hb
  · exact (step_of_single hp).trans (perform_sinkReady_idle _ hb)

theorem State.finished_iff (s : State) :
    s.finished = true ↔ s.busy = false ∧ ∀ e ∈ s.pending.flatten, e.isHost = false := by
  simp only [State.finished, State.quiescent, Bool.and_eq_true, Bool.not_eq_true', List.all_eq_true]

/-- The sink and the reset source leave an idle block idle. -/
theorem perform_of_not_host {e : Event} {s : State} (he : e.isHost = false) (hb : s.busy = false) :
    ∃ t, perform e s = .next t ∧ t.busy = false ∧ t.pending = s.pending := by
  cases e with
  | sinkReady => exact ⟨s, perform_sinkReady_idle s hb, hb, rfl⟩
  | reset => exact ⟨resetEvent s, perform_reset s, rfl, rfl⟩
  | busRead wa => cases he
  | busWrite wa v => cases he

/-- A finished run stays finished: no event left is the host's, and none can set BUSY. -/
theorem State.step_of_finished {s : State} (hs : s.finished = true) :
    ∃ t, step s = .next t ∧ t.finished = true := by
  obtain ⟨hb, hnoHost⟩ := s.finished_iff.mp hs
  cases hf : fetch s with
  | none => exact ⟨s, step_of_none hf, hs⟩
  | some taken =>
    obtain ⟨e, s'⟩ := taken
    obtain ⟨p, c, rfl, hperm⟩ := fetch_cases hf
    have hleft : ∀ e' ∈ e :: p.flatten, e'.isHost = false := fun e' he' => hnoHost e' (hperm.mem_iff.mpr he')
    obtain ⟨he, hlater⟩ := List.forall_mem_cons.mp hleft
    obtain ⟨t, ht, hidle, hpend⟩ := perform_of_not_host (s := { s with pending := p, choices := c }) he hb
    refine ⟨t, (step_of_fetch hf).trans ht, t.finished_iff.mpr ⟨hidle, ?_⟩⟩
    rw [hpend]
    exact hlater

/-- Settles O24, by induction on the number of steps; O22 says that no step sends a byte. -/
theorem finishedRunsSendNothing : Obligations.FinishedRunsSendNothing := by
  intro k
  induction k with
  | zero => exact fun s hs => ⟨s, rfl, rfl, hs⟩
  | succ k ih =>
    intro s hs
    obtain ⟨hidle, -⟩ := s.finished_iff.mp hs
    obtain ⟨u, hstep, hu⟩ := State.step_of_finished hs
    have hsent : u.sent = s.sent := noByteLeavesWhileIdle.1 s u hidle hstep
    obtain ⟨t, hrun, htsent, ht⟩ := ih u hu
    exact ⟨t, (runSteps_succ k hstep).trans hrun, htsent.trans hsent, ht⟩

/-! ### Stalled -/

/-- `t` holds the frame in progress of `s` at the same byte, with nothing sent between. -/
structure State.SameOffer (s t : State) : Prop where
  busy : t.busy = true
  idx : t.idx = s.idx
  acc : t.acc = s.acc
  shadow : t.shadow = s.shadow
  sent : t.sent = s.sent

section
variable {s t : State}

theorem State.SameOffer.txData (h : s.SameOffer t) (hb : s.busy = true) : t.txData = s.txData := by
  rw [State.txData, State.txData, h.busy, hb, h.shadow, h.acc, h.idx]

theorem State.SameOffer.txLast (h : s.SameOffer t) (hb : s.busy = true) : t.txLast = s.txLast := by
  rw [State.txLast, State.txLast, h.busy, hb, h.idx]

/-- A host transaction leaves the offer as it is (R165). -/
theorem State.SameOffer.host (h : s.SameOffer t) {e : Event} (hsink : e ≠ .sinkReady) (hreset : e ≠ .reset) :
    ∃ u, perform e t = .next u ∧ s.SameOffer u ∧ u.pending = t.pending := by
  obtain ⟨u, hu, hb, hidx, hacc, hshadow, hsent, hpend, -⟩ := perform_host_keeps e t h.busy hsink hreset
  exact ⟨u, hu, ⟨hb, hidx.trans h.idx, hacc.trans h.acc, hshadow.trans h.shadow, hsent.trans h.sent⟩, hpend⟩

end

/-- Settles O46: over the moments only host transactions happen, and each leaves the offer as it is. -/
theorem stalledFrameKeepsItsOffer : Obligations.StalledFrameKeepsItsOffer := by
  intro s moments rest hb hr hnone hp
  obtain ⟨t, -, hrun, ⟨-, hsame⟩, -⟩ := run_moments (fun n t => n = 0 ∧ s.SameOffer t)
    (fun _ _ _ _ ⟨hn, h⟩ => ⟨hn, h.busy, h.idx, h.acc, h.shadow, h.sent⟩)
    (fun n _ ⟨hn, _⟩ => absurd hn n.succ_ne_zero)
    (fun _ _ _ ⟨hn, h⟩ hsink hreset =>
      (h.host hsink hreset).imp fun _ ⟨hu, hsame, hpend⟩ => ⟨hu, ⟨hn, hsame⟩, hpend⟩)
    _ moments rest s rfl hr ⟨hnone, hb, rfl, rfl, rfl, rfl⟩ hp
  exact ⟨t, hrun, hsame.busy, hsame.idx, hsame.acc, hsame.txData hb, hsame.txLast hb, hsame.busy, hsame.sent⟩

end Sys2Proof.Machine
end

section
/-! The exceptions family (60_exceptions.md): what a transaction that raises an error does, and two of them in either
order (R181, R183, R186). -/

namespace Sys2Proof.Machine

/-- R181's list of the writes that raise an error, each with the bit it sets. -/
theorem raisesError_iff_exists_cause (s : State) (wa : BitVec 3) (v : Word) :
    raisesError s.busy wa v = true ↔ ∃ b : ErrorBit, b.Cause s (.busWrite wa v) := by
  simp only [raisesError, definedCommand, Bool.or_eq_true, Bool.and_eq_true, Bool.not_eq_true', Bool.or_eq_false_iff,
    beq_iff_eq, beq_eq_false_iff_ne]
  constructor
  · rintro (((⟨rfl, ⟨hb, rfl⟩ | ⟨⟨h0, h1⟩, h2⟩⟩ | h5) | h6) | h7)
    · exact ⟨.busy, rfl, hb⟩
    · exact ⟨.cmd, v, rfl, h0, h1, h2⟩
    · exact ⟨.access, wa, v, rfl, .inl h5⟩
    · exact ⟨.access, wa, v, rfl, .inr (.inl h6)⟩
    · exact ⟨.access, wa, v, rfl, .inr (.inr h7)⟩
  · rintro ⟨_ | _ | _, hc⟩
    · obtain ⟨he, hb⟩ := hc
      cases he
      exact .inl (.inl (.inl ⟨rfl, .inl ⟨hb, rfl⟩⟩))
    · obtain ⟨v, he, h0, h1, h2⟩ := hc
      cases he
      exact .inl (.inl (.inl ⟨rfl, .inr ⟨⟨h0, h1⟩, h2⟩⟩))
    · obtain ⟨wa, v, he, hw⟩ := hc
      cases he
      tauto

/-- Settles O31: by R181's list the write is the cause of one error bit, which `perform_of_cause` says is all it
sets. -/
theorem errorsHaveNoOtherEffect : Obligations.ErrorsHaveNoOtherEffect := by
  intro s wa v herr
  obtain ⟨b, hc⟩ := (raisesError_iff_exists_cause s wa v).mp herr
  have hexec : exec (decodeWrite wa v) s = .next (raise b s) := perform_of_cause hc
  cases b with
  | busy =>
    obtain ⟨he, -⟩ := hc
    cases he
    exact ⟨fun _ _ => hexec, fun _ hne => absurd rfl hne, fun hro => absurd hro (by decide), .inl rfl⟩
  | cmd =>
    obtain ⟨v, he, -, h1, -⟩ := hc
    cases he
    exact ⟨fun _ hstart => absurd hstart h1, fun _ _ => hexec, fun hro => absurd hro (by decide), .inl rfl⟩
  | access =>
    obtain ⟨wa, v, he, hw⟩ := hc
    cases he
    have hne : wa ≠ 4 := by rintro rfl; exact absurd hw (by decide)
    exact ⟨fun h4 => absurd h4 hne, fun h4 => absurd h4 hne, fun _ => hexec, .inr hw⟩

/-- Whether an event raises an error depends on BUSY only. -/
theorem ErrorBit.Cause.of_busy_eq {b : ErrorBit} {s t : State} {e : Event} (h : b.Cause s e) (hb : t.busy = s.busy) :
    b.Cause t e := by
  cases b with
  | busy => exact h.imp_right hb.trans
  | cmd | access => exact h

theorem raise_comm (a b : ErrorBit) (s : State) : raise a (raise b s) = raise b (raise a s) := by
  cases a <;> cases b <;> rfl

theorem raise_with_pending (b : ErrorBit) (s : State) (p : List Moment) :
    { raise b s with pending := p } = raise b { s with pending := p } := by
  cases b <;> rfl

/-- The first of two errors leaves BUSY, so the second is raised as well. -/
theorem runSteps_errors {s : State} {b₁ b₂ : ErrorBit} {e₁ e₂ : Event} (rest : List Moment) (h₁ : b₁.Cause s e₁)
    (h₂ : b₂.Cause s e₂) :
    runSteps 2 { s with pending := [e₁] :: [e₂] :: rest } = .next (raise b₂ (raise b₁ { s with pending := rest })) := by
  have hfirst : perform e₁ { s with pending := [e₂] :: rest } = .next (raise b₁ { s with pending := [e₂] :: rest }) :=
    perform_of_cause (h₁.of_busy_eq rfl)
  refine runSteps_serial rfl hfirst (raise_pending _ _) ?_
  rw [raise_with_pending]
  exact perform_of_cause (h₂.of_busy_eq (raise_busy _ _))

/-- Settles O32: either order sets the same two bits. -/
theorem errorOrderDoesNotMatter : Obligations.ErrorOrderDoesNotMatter := by
  intro s wa wb v w rest hv hw
  obtain ⟨a, ha⟩ := (raisesError_iff_exists_cause s wa v).mp hv
  obtain ⟨b, hb⟩ := (raisesError_iff_exists_cause s wb w).mp hw
  rw [runSteps_errors rest ha hb, runSteps_errors rest hb ha, raise_comm]

end Sys2Proof.Machine
end

section
/-! The exceptions family: several instances on one platform share no state (60_exceptions.md R193). -/

namespace Sys2Proof.Machine

theorem Platform.reset_reachable (n : Nat) : ∀ s ∈ (Platform.reset n).instances, Reachable s := by
  intro s hs
  rw [List.eq_of_mem_replicate hs]
  exact .afterReset [] 0

/-- A reachable state stays reachable wherever the races of the other TPEs have moved the count of choices (log 17). -/
theorem Platform.step_keeps_reachable {k : Nat} {p q : Platform} (h : Platform.step k p = .next q)
    (hp : ∀ s ∈ p.instances, Reachable s) : ∀ s ∈ q.instances, Reachable s := by
  obtain ⟨-, rfl⟩ | ⟨s, t, hk, ht, rfl⟩ := Platform.step_cases h
  · exact hp
  · have hs : Reachable s := hp s (List.mem_of_getElem? hk)
    have hreach : Reachable t := .afterStep (.agentsAct s.pending p.choices hs) ht
    intro u hu
    obtain hu | rfl := List.mem_or_eq_of_mem_set hu
    · exact hp u hu
    · exact hreach

/-- Settles O59: the step writes place `k` of the list and no other. -/
theorem instancesShareNoState : Obligations.InstancesShareNoState := by
  refine ⟨fun p q k h => ?_, Platform.reset_reachable⟩
  have hreach := Platform.step_keeps_reachable h
  obtain ⟨hnone, rfl⟩ | ⟨s, t, hk, ht, rfl⟩ := Platform.step_cases h
  · exact ⟨fun _ _ => rfl, rfl, fun s hs => absurd (hnone.symm.trans hs) (by simp), hreach⟩
  · refine ⟨fun j hj => List.getElem?_set_ne hj.symm, List.length_set, fun s' hs' => ?_, hreach⟩
    obtain rfl : s = s' := Option.some.inj (hk.symm.trans hs')
    have hlt : k < p.instances.length := (List.getElem?_eq_some_iff.mp hk).1
    exact ⟨t, List.getElem?_set_self hlt, ht, rfl⟩

end Sys2Proof.Machine
end

section
/-! The reset and hazards family (70_reset_and_hazards.md): what a reset does, and that no other event clears a record
register or ends a frame early. The races of R206, R207 and R209 stand with the host interface family. -/

namespace Sys2Proof.Machine

/-- The four record registers make up the record. -/
theorem record_eq_of_readRecord_eq {s t : State} (h : ∀ r, readRecord r t = readRecord r s) : t.record = s.record :=
  (Record.mk.injEq ..).mpr ⟨h .ts, h .lat, h .lon, h .alt⟩

theorem RecordReg.wa_le (r : RecordReg) : r.wa.toNat ≤ 3 := by cases r <;> decide

/-- Besides a reset, the record changes only by a write of one of its registers (R15). -/
theorem Effect.write_of_record_ne {s t : State} {e : Event} (h : Effect s e t) (hreset : e ≠ .reset)
    (hne : t.record ≠ s.record) : ∃ (wa : BitVec 3) (v : Word), wa.toNat ≤ 3 ∧ e = .busWrite wa v := by
  by_contra hnone
  have hkept (r : RecordReg) : readRecord r t = readRecord r s :=
    h.keeps_readRecord hreset r fun v he => hnone ⟨r.wa, v, r.wa_le, he⟩
  exact hne (record_eq_of_readRecord_eq hkept)

/-- Settles O53: an event that is no reset has an effect that leaves the record and BUSY but for the stated causes, and
a reset alone at its moment is `resetEvent`. -/
theorem resetClearsEveryRegister : Obligations.ResetClearsEveryRegister := by
  refine ⟨fun s s' t e hf ht hreset => ?_, fun s rest hp => ?_⟩
  · obtain ⟨p, c, hperf⟩ := perform_of_step hf ht
    have heff := effect_of_perform hperf
    exact ⟨heff.write_of_record_ne hreset,
      fun hs hidle => (heff.last_or_reset_of_busy_falls hs hidle).resolve_right hreset⟩
  · have hstep : step s = .next (resetEvent { s with pending := rest }) :=
      (step_of_single hp).trans (perform_reset _)
    exact ⟨_, hstep, by simp [State.txValid, State.txLast, State.txData]⟩

end Sys2Proof.Machine
end
